-- ==== Sys2Proof/Word.lean ====
section
/-! DEFINITION. The words of the engine: bytes of the music stream and of the OPL register space,
7-bit data operands, and logical-channel and voice numbers (spec 00_scope R8, R11). -/

namespace Sys2Proof

/-- A byte (u8): a stream byte, a register number or a register value. -/
abbrev Byte := BitVec 8

/-- A 7-bit data operand (u7, 00_scope R11). -/
abbrev U7 := BitVec 7

/-- A logical channel 0..15 (00_scope R8). -/
abbrev Chan := Fin 16

/-- A hardware voice 0..8 (00_scope R8). -/
abbrev VoiceId := Fin 9

end Sys2Proof
end

