-- ==== Sys2Proof/Syntax.lean ====
section
/-! DEFINITION. The instructions: one constructor per row of spec/opcode_table.json, in the table's
order. Every data operand is its 7-bit value (30_encoding R94); raw payload bytes are whole bytes
(30_encoding R93). -/

namespace Sys2Proof

/-- An event part of the CMF music stream (30_encoding R90 to R99). -/
inductive Instr where
  /-- DELTA_TIME: the ticks before an event, 0..0x0FFFFFFF (R91, R152). -/
  | deltaTime (delta : Nat)
  /-- NOTE_OFF (R181): the velocity is read and unused. -/
  | noteOff (c : Chan) (note vel : U7)
  /-- NOTE_ON (R182): velocity 0 is a note off. -/
  | noteOn (c : Chan) (note vel : U7)
  /-- POLY_PRESSURE (R183). -/
  | polyPressure (c : Chan) (note pressure : U7)
  /-- CONTROLLER (R184): the generic controller message, dispatched on `num` (R200). -/
  | controller (c : Chan) (num val : U7)
  /-- CTRL_AMVIB, controller 0x63 (R202). -/
  | ctrlAmvib (c : Chan) (val : U7)
  /-- CTRL_MARKER, controller 0x66 (R203). -/
  | ctrlMarker (c : Chan) (val : U7)
  /-- CTRL_RHYTHM, controller 0x67 (R204). -/
  | ctrlRhythm (c : Chan) (val : U7)
  /-- CTRL_TRANSPOSE_UP, controller 0x68 (R205). -/
  | ctrlTransposeUp (c : Chan) (val : U7)
  /-- CTRL_TRANSPOSE_DOWN, controller 0x69 (R206). -/
  | ctrlTransposeDown (c : Chan) (val : U7)
  /-- CTRL_OTHER, every other controller number (R207). -/
  | ctrlOther (c : Chan) (num val : U7)
  /-- PROGRAM (R186). -/
  | program (c : Chan) (instr : U7)
  /-- CHAN_PRESSURE (R187). -/
  | chanPressure (c : Chan) (pressure : U7)
  /-- PITCH_BEND (R188): least significant group first. -/
  | pitchBend (c : Chan) (lsb msb : U7)
  /-- SYSEX (R216): payload bytes (bit 7 clear) and the low 7 bits of the terminator (bit 7 set). -/
  | sysex (payload : List U7) (terminator : U7)
  /-- MTC_QUARTER_FRAME (R217). -/
  | mtcQuarterFrame (p : Byte)
  /-- SONG_POSITION (R218). -/
  | songPosition (p1 p2 : Byte)
  /-- SONG_SELECT (R219). -/
  | songSelect (p : Byte)
  /-- SYS_UNDEFINED_F4 (R220). -/
  | sysUndefinedF4
  /-- SYS_UNDEFINED_F5 (R221). -/
  | sysUndefinedF5
  /-- TUNE_REQUEST (R222). -/
  | tuneRequest
  /-- END_SYSEX as a status byte (R223). -/
  | endSysex
  /-- TIMING_CLOCK (R224). -/
  | timingClock
  /-- SYS_UNDEFINED_F9 (R225). -/
  | sysUndefinedF9
  /-- START (R226). -/
  | start
  /-- CONTINUE (R227). -/
  | continuePlay
  /-- STOP (R228). -/
  | stop
  /-- SYS_UNDEFINED_FD (R229). -/
  | sysUndefinedFD
  /-- ACTIVE_SENSING (R230). -/
  | activeSensing
  /-- META_END_OF_TRACK (R232). -/
  | metaEndOfTrack
  /-- META_OTHER (R233): type byte other than 0x2F. -/
  | metaOther (t : Byte)
  /-- RUNNING_STATUS (R156): the first message byte, bit 7 clear, not consumed as a status. -/
  | runningStatus (x : U7)
  deriving DecidableEq, Repr

end Sys2Proof
end

