-- ==== Sys2Proof/WellFormed.lean ====
section
/-! DEFINITION. Which terms of `Instr` are instructions of the engine: the bounds the types do not
already carry (30_encoding R91, R98, R99). -/

namespace Sys2Proof

/-- The controller numbers with a row of their own: 0x63, 0x66, 0x67, 0x68, 0x69 (30_encoding R98). -/
def namedControllers : List U7 := [0x63, 0x66, 0x67, 0x68, 0x69]

/-- A well-formed instruction: a delta time fits 28 bits (R91), CTRL_OTHER has none of the named
controller numbers (R207), META_OTHER's type is not 0x2F (R233). -/
def Instr.wellFormed : Instr → Bool
  | .deltaTime delta => decide (delta ≤ 0x0FFFFFFF)
  | .ctrlOther _ num _ => !namedControllers.contains num
  | .metaOther t => decide (t ≠ 0x2F)
  | .noteOff _ _ _ => true
  | .noteOn _ _ _ => true
  | .polyPressure _ _ _ => true
  | .controller _ _ _ => true
  | .ctrlAmvib _ _ => true
  | .ctrlMarker _ _ => true
  | .ctrlRhythm _ _ => true
  | .ctrlTransposeUp _ _ => true
  | .ctrlTransposeDown _ _ => true
  | .program _ _ => true
  | .chanPressure _ _ => true
  | .pitchBend _ _ _ => true
  | .sysex _ _ => true
  | .mtcQuarterFrame _ => true
  | .songPosition _ _ => true
  | .songSelect _ => true
  | .sysUndefinedF4 => true
  | .sysUndefinedF5 => true
  | .tuneRequest => true
  | .endSysex => true
  | .timingClock => true
  | .sysUndefinedF9 => true
  | .start => true
  | .continuePlay => true
  | .stop => true
  | .sysUndefinedFD => true
  | .activeSensing => true
  | .metaEndOfTrack => true
  | .runningStatus _ => true

end Sys2Proof
end

