-- ==== Sys2Proof/Decode.lean ====
section
/-! DEFINITION. The decoder, total on any bytes (30_encoding R102), the encoder written from the same
formats (R91, R93, R97 to R99), and the opcode table's words. -/

namespace Sys2Proof

/-- The low seven bits of a byte: `d[6:0]` (30_encoding R94). -/
def low7 (b : Byte) : U7 := b.setWidth 7

/-- Bits 3:0 of a status byte: the logical channel (30_encoding R92). -/
def channelOf (st : Byte) : Chan := ⟨st.toNat % 16, Nat.mod_lt _ (by decide)⟩

/-! ### Delta time -/

/-- What reading a delta time gives: its value and the number of bytes read, or the end of the stream
after `used` bytes. -/
inductive VlqRead where
  | value (v used : Nat)
  | truncated (used : Nat)
  deriving DecidableEq, Repr

/-- ReadVLQ with `fuel` bytes still allowed (41_event_reader R152): the groups accumulate most
significant first, `v * 128 + x[6:0]`; after the last allowed byte the value ends whatever its bit 7. -/
def decodeVlqFrom : Nat → Nat → Nat → List Byte → VlqRead
  | 0, v, used, _ => .value v used
  | _ + 1, _, used, [] => .truncated used
  | fuel + 1, v, used, x :: xs =>
    if x.msb then decodeVlqFrom fuel (v * 128 + (low7 x).toNat) (used + 1) xs
    else .value (v * 128 + (low7 x).toNat) (used + 1)

/-- ReadVLQ: at most four bytes (30_encoding R91, 41_event_reader R152). -/
def decodeVlq (bytes : List Byte) : VlqRead := decodeVlqFrom 4 0 0 bytes

/-! ### Messages -/

/-- What the bytes after a status decode to; `used` counts the bytes read after the status byte.
`truncated`: the stream ends inside the message (CorruptStream). `badDataByte`: the last byte read is
a data byte with bit 7 set. `noStatus`: the status has bit 7 clear (CorruptStream, R157). -/
inductive Decoded where
  | instr (i : Instr) (used : Nat)
  | truncated (used : Nat)
  | badDataByte (used : Nat)
  | noStatus
  deriving DecidableEq, Repr

/-- Format CH1: one data byte, read by ReadData (30_encoding R93, 20_memory R62). -/
def dataByte1 (mk : U7 → Instr) : List Byte → Decoded
  | [] => .truncated 0
  | d :: _ => if d.msb then .badDataByte 1 else .instr (mk (low7 d)) 1

/-- Format CH2: two data bytes, read by ReadData in stream order (30_encoding R93, 20_memory R62). -/
def dataByte2 (mk : U7 → U7 → Instr) : List Byte → Decoded
  | [] => .truncated 0
  | [d1] => if d1.msb then .badDataByte 1 else .truncated 1
  | d1 :: d2 :: _ =>
    if d1.msb then .badDataByte 1
    else if d2.msb then .badDataByte 2
    else .instr (mk (low7 d1) (low7 d2)) 2

/-- Formats SYS1 and META: one raw byte (30_encoding R93, 44_system_messages R215). -/
def rawByte1 (mk : Byte → Instr) : List Byte → Decoded
  | [] => .truncated 0
  | p :: _ => .instr (mk p) 1

/-- Format SYS2: two raw bytes (30_encoding R93). -/
def rawByte2 (mk : Byte → Byte → Instr) : List Byte → Decoded
  | [] => .truncated 0
  | [_] => .truncated 1
  | p1 :: p2 :: _ => .instr (mk p1 p2) 2

/-- Format SYSX: payload bytes up to and including the first byte with bit 7 set
(44_system_messages R216); none where the stream ends before one. -/
def sysexScan : List Byte → Option (List U7 × U7)
  | [] => none
  | x :: xs =>
    if x.msb then some ([], low7 x)
    else (sysexScan xs).map fun r => (low7 x :: r.1, r.2)

/-- SYSEX: its payload and terminator, all of them read (44_system_messages R216). -/
def decodeSysex (rest : List Byte) : Decoded :=
  match sysexScan rest with
  | some (payload, q) => .instr (.sysex payload q) (payload.length + 1)
  | none => .truncated rest.length

/-- The controller sub-map: the row of controller number `num` (30_encoding R98,
43_controllers R200). -/
def controllerRow (c : Chan) (num val : U7) : Instr :=
  if num = 0x63 then .ctrlAmvib c val
  else if num = 0x66 then .ctrlMarker c val
  else if num = 0x67 then .ctrlRhythm c val
  else if num = 0x68 then .ctrlTransposeUp c val
  else if num = 0x69 then .ctrlTransposeDown c val
  else .ctrlOther c num val

/-- The meta map: type 0x2F ends the track, every other type is META_OTHER
(44_system_messages R231). -/
def metaRow (t : Byte) : Instr :=
  if t = 0x2F then .metaEndOfTrack else .metaOther t

/-- The system-message map on the low four bits of a status 0xF0..0xFF (30_encoding R99). -/
def decodeSystem (low : Nat) (rest : List Byte) : Decoded :=
  match low with
  | 0x0 => decodeSysex rest
  | 0x1 => rawByte1 .mtcQuarterFrame rest
  | 0x2 => rawByte2 .songPosition rest
  | 0x3 => rawByte1 .songSelect rest
  | 0x4 => .instr .sysUndefinedF4 0
  | 0x5 => .instr .sysUndefinedF5 0
  | 0x6 => .instr .tuneRequest 0
  | 0x7 => .instr .endSysex 0
  | 0x8 => .instr .timingClock 0
  | 0x9 => .instr .sysUndefinedF9 0
  | 0xA => .instr .start 0
  | 0xB => .instr .continuePlay 0
  | 0xC => .instr .stop 0
  | 0xD => .instr .sysUndefinedFD 0
  | 0xE => .instr .activeSensing 0
  | _ => rawByte1 metaRow rest

/-- Dispatch(s): the message of the resolved status `st` whose data or payload bytes begin `rest`
(41_event_reader R158, 30_encoding R97, R99). -/
def decodeBody (st : Byte) (rest : List Byte) : Decoded :=
  match st.toNat / 16 with
  | 0x8 => dataByte2 (.noteOff (channelOf st)) rest
  | 0x9 => dataByte2 (.noteOn (channelOf st)) rest
  | 0xA => dataByte2 (.polyPressure (channelOf st)) rest
  | 0xB => dataByte2 (controllerRow (channelOf st)) rest
  | 0xC => dataByte1 (.program (channelOf st)) rest
  | 0xD => dataByte1 (.chanPressure (channelOf st)) rest
  | 0xE => dataByte2 (.pitchBend (channelOf st)) rest
  | 0xF => decodeSystem (st.toNat % 16) rest
  | _ => .noStatus

/-- A decoding shifted by `n` bytes already read. -/
def Decoded.after (n : Nat) : Decoded → Decoded
  | .instr i used => .instr i (n + used)
  | .truncated used => .truncated (n + used)
  | .badDataByte used => .badDataByte (n + used)
  | .noStatus => .noStatus

/-- The bytes after a delta time: a message with its status byte, or, where the first byte has bit 7
clear, the running-status form (30_encoding R95). Here `used` counts every byte read. -/
def decodeMessage : List Byte → Decoded
  | [] => .truncated 0
  | b :: rest =>
    if b.msb then (decodeBody b rest).after 1
    else .instr (.runningStatus (low7 b)) 1

/-! ### Encoder -/

/-- A 7-bit operand as a data byte (bit 7 clear). -/
def dataByte (d : U7) : Byte := d.setWidth 8

/-- The low seven bits of `n` as a delta byte with continuation bit 7 set. -/
def contByte (n : Nat) : Byte := BitVec.ofNat 8 (0x80 + n % 128)

/-- The low seven bits of `n` as the last delta byte. -/
def lastByte (n : Nat) : Byte := BitVec.ofNat 8 (n % 128)

/-- The shortest delta time of value `d`, most significant group first (30_encoding R91). -/
def encodeVlq (d : Nat) : List Byte :=
  if d < 128 then [lastByte d]
  else if d < 16384 then [contByte (d / 128), lastByte d]
  else if d < 2097152 then [contByte (d / 16384), contByte (d / 128), lastByte d]
  else [contByte (d / 2097152), contByte (d / 16384), contByte (d / 128), lastByte d]

/-- The status byte of a channel message: kind in bits 7:4, channel in bits 3:0 (30_encoding R92). -/
def statusByte (kind : Nat) (c : Chan) : Byte := BitVec.ofNat 8 (kind * 16 + c.val)

/-- The bytes of an instruction, its status byte present (30_encoding R93, R97 to R99). -/
def encode : Instr → List Byte
  | .deltaTime delta => encodeVlq delta
  | .noteOff c n vel => [statusByte 0x8 c, dataByte n, dataByte vel]
  | .noteOn c n vel => [statusByte 0x9 c, dataByte n, dataByte vel]
  | .polyPressure c n p => [statusByte 0xA c, dataByte n, dataByte p]
  | .controller c num val => [statusByte 0xB c, dataByte num, dataByte val]
  | .ctrlAmvib c val => [statusByte 0xB c, 0x63, dataByte val]
  | .ctrlMarker c val => [statusByte 0xB c, 0x66, dataByte val]
  | .ctrlRhythm c val => [statusByte 0xB c, 0x67, dataByte val]
  | .ctrlTransposeUp c val => [statusByte 0xB c, 0x68, dataByte val]
  | .ctrlTransposeDown c val => [statusByte 0xB c, 0x69, dataByte val]
  | .ctrlOther c num val => [statusByte 0xB c, dataByte num, dataByte val]
  | .program c p => [statusByte 0xC c, dataByte p]
  | .chanPressure c p => [statusByte 0xD c, dataByte p]
  | .pitchBend c lsb msb => [statusByte 0xE c, dataByte lsb, dataByte msb]
  | .sysex payload q => 0xF0 :: (payload.map dataByte ++ [dataByte q ||| 0x80])
  | .mtcQuarterFrame p => [0xF1, p]
  | .songPosition p1 p2 => [0xF2, p1, p2]
  | .songSelect p => [0xF3, p]
  | .sysUndefinedF4 => [0xF4]
  | .sysUndefinedF5 => [0xF5]
  | .tuneRequest => [0xF6]
  | .endSysex => [0xF7]
  | .timingClock => [0xF8]
  | .sysUndefinedF9 => [0xF9]
  | .start => [0xFA]
  | .continuePlay => [0xFB]
  | .stop => [0xFC]
  | .sysUndefinedFD => [0xFD]
  | .activeSensing => [0xFE]
  | .metaEndOfTrack => [0xFF, 0x2F]
  | .metaOther t => [0xFF, t]
  | .runningStatus x => [dataByte x]

/-- The row an instruction's bytes decode to: the generic CONTROLLER term names the words of the
CTRL_* rows (30_encoding R98; log entry 8), every other term is its own row. -/
def Instr.row : Instr → Instr
  | .controller c num val => controllerRow c num val
  | i => i

/-! ### The opcode table's words -/

/-- The low `n` bytes of `w`, most significant first: opcode_table.json numbers the first byte of a
row highest (its `match` 0x800000 is the status 0x80 of NOTE_OFF; log entry 13). -/
def tableBytes : Nat → Nat → List Byte
  | 0, _ => []
  | n + 1, w => BitVec.ofNat 8 (w / 256 ^ n) :: tableBytes n w

/-- What follows the table's bits: operand bytes of zeros, and for SYSEX, whose row gives only the
status byte, the terminator with every free bit 0 (0x80; log entry 13). -/
def tableTail : List Byte → List Byte
  | [] => [0, 0]
  | b :: _ => if b = 0xF0 then [0x80] else [0, 0]

/-- The bytes of an opcode-table word of `nbits` bits, laid out in stream order. -/
def tableWordBytes (nbits w : Nat) : List Byte :=
  let word := tableBytes (nbits / 8) w
  word ++ tableTail word

/-- The message the decoder reads from an opcode-table word's bytes, none where it refuses. -/
def decodedInstr : Decoded → Option Instr
  | .instr i _ => some i
  | .truncated _ => none
  | .badDataByte _ => none
  | .noStatus => none

/-- The delta time read from bytes, none where it is cut short. -/
def decodedDelta : VlqRead → Option Instr
  | .value v _ => some (.deltaTime v)
  | .truncated _ => none

/-- The instruction the decoder reads from an opcode-table word, none where it refuses. DELTA_TIME is the
one row to which the table gives no bits: its word is read as the delta time that begins an event (log
entry 13). -/
def decodeTableWord (nbits w : Nat) : Option Instr :=
  if nbits = 0 then decodedDelta (decodeVlq (tableWordBytes nbits w))
  else decodedInstr (decodeMessage (tableWordBytes nbits w))

end Sys2Proof
end

