-- ==== Sys2Proof/Config.lean ====
section
/-! DEFINITION. What is fixed for a run: the configuration inputs of 00_scope R9 (music stream, ticks
per second, instrument bank), the named parameters of 00_scope R10 with their defaults, and the free
values the spec leaves open (constants with no body). -/

namespace Sys2Proof

/-- One operator of an instrument: its five timbre bytes, named by the OPL register group each is
written to (40_instrument_bank R130). -/
structure Operator where
  b20 : Byte
  b40 : Byte
  b60 : Byte
  b80 : Byte
  bE0 : Byte
  deriving DecidableEq, Repr, Inhabited

/-- An instrument: modulator, carrier and the shared connection byte (40_instrument_bank R130). -/
structure Instrument where
  mod  : Operator
  car  : Operator
  conn : Byte
  deriving DecidableEq, Repr, Inhabited

/-- BLOCK_PACKING (00_scope R10, 46_frequency R281). -/
inductive BlockPacking where
  | truncate8
  | mask3
  deriving DecidableEq, Repr

/-- PERC_OPERATOR_SOURCE (00_scope R10, 45_voice_allocator R253). -/
inductive PercSource where
  | sameRole
  | modulator
  deriving DecidableEq, Repr

/-- DELAY_OVERFLOW_POLICY (00_scope R10, 41_event_reader R153). -/
inductive DelayPolicy where
  | fault
  | truncate16
  | saturate
  deriving DecidableEq, Repr

/-- One value of a host's FNUM_FN: the F-number at a note, bend and transpose. -/
structure FnumEntry where
  note      : Nat
  bend      : Nat
  transpose : Int
  fnum      : Nat
  deriving DecidableEq, Repr

/-- FNUM_FN (00_scope R10): the reference formula of 46_frequency R282, or the host's own total function
as plain data, its values at the listed arguments and one value for every other (log entry 6). Notes,
bends and transposes are finitely many, so every function on them is such a table. -/
inductive FnumFn where
  | reference
  | table (entries : List FnumEntry) (other : Nat)
  deriving DecidableEq, Repr

/-- One triple of PRESET_VALUES: voice, F-number, block (70_reset_and_hazards R333). -/
structure Preset where
  voice : VoiceId
  fnum  : BitVec 10
  block : BitVec 3
  deriving DecidableEq, Repr

/-- The music-data region M of length L (00_scope R9, 20_memory R60): byte `a` for `a < length` is
what `cells` holds at `a`, an unlisted address being a byte 0x00. -/
structure Music where
  cells  : List Host.Cell
  length : Nat
  deriving DecidableEq, Repr

/-- The configuration of a run (00_scope R9, R10). No event changes it (20_memory R63,
40_instrument_bank R135). -/
structure Config where
  music           : Music
  tps             : BitVec 16
  bank            : Vector Instrument 128
  blockPacking    : BlockPacking
  percSource      : PercSource
  presetPercFreqs : Bool
  presetValues    : List Preset
  delayPolicy     : DelayPolicy
  ncWidth         : Nat
  fnumFn          : FnumFn
  deriving DecidableEq, Repr

/-- Free value (log entry 5, DESIGN CHOICE of form): DEFAULT_PATCHES, the 16 default instruments,
whose contents no source gives (40_instrument_bank R133, decision D44 OPEN). -/
opaque Config.defaultPatches : Fin 16 → Instrument

/-- The bank as loaded with zero declared instruments: slot k is `DEFAULT_PATCHES[k mod 16]`
(40_instrument_bank R134). -/
def Config.defaultBank : Vector Instrument 128 :=
  ⟨((List.range 128).map fun k =>
      Config.defaultPatches ⟨k % 16, Nat.mod_lt k (by decide)⟩).toArray, by simp⟩

/-- The default PRESET_VALUES (00_scope R10). -/
def Config.defaultPresets : List Preset :=
  [⟨7, 509, 2⟩, ⟨8, 514, 1⟩]

/-- The configuration of `State.reset`: every parameter of 00_scope R10 at its default, no music
loaded (log entry 2), `TPS` = 96 (DESIGN CHOICE, log entry 3), the bank with zero declared
instruments (log entry 5). -/
def Config.default : Config where
  music           := ⟨[], 0⟩
  tps             := 96
  bank            := Config.defaultBank
  blockPacking    := .truncate8
  percSource      := .sameRole
  presetPercFreqs := false
  presetValues    := Config.defaultPresets
  delayPolicy     := .fault
  ncWidth         := 32
  fnumFn          := .reference

/-- RECORD_LAYOUT: which of the 11 record bytes holds each instrument field
(00_scope R10, 40_instrument_bank R132). -/
structure RecordLayout where
  modB20 : Fin 11
  carB20 : Fin 11
  modB40 : Fin 11
  carB40 : Fin 11
  modB60 : Fin 11
  carB60 : Fin 11
  modB80 : Fin 11
  carB80 : Fin 11
  modBE0 : Fin 11
  carBE0 : Fin 11
  conn   : Fin 11
  deriving DecidableEq, Repr

/-- The default RECORD_LAYOUT (40_instrument_bank R132). -/
def RecordLayout.default : RecordLayout :=
  ⟨0, 1, 2, 3, 4, 5, 6, 7, 8, 9, 10⟩

/-- HEADER_LAYOUT: the offsets of the CMF header fields that follow the magic and the version
(00_scope R10, 40_instrument_bank R137). -/
structure HeaderLayout where
  instrumentOffset : Nat
  musicOffset      : Nat
  ticksPerQuarter  : Nat
  ticksPerSecond   : Nat
  titleOffset      : Nat
  composerOffset   : Nat
  remarksOffset    : Nat
  channelMap       : Nat
  instrumentCount  : Nat
  tempo            : Nat
  deriving DecidableEq, Repr

/-- The default HEADER_LAYOUT (40_instrument_bank R137). -/
def HeaderLayout.default : HeaderLayout :=
  ⟨0x06, 0x08, 0x0A, 0x0C, 0x0E, 0x10, 0x12, 0x14, 0x24, 0x26⟩

end Sys2Proof
end

