-- ==== Sys2Proof/Machine/State.lean ====
section
/-! DEFINITION. The engine's state (spec 10_state R20 to R34), the configuration it was reset with, what
its ports have carried, and the reasons a step can stop. Plain data throughout. -/

namespace Sys2Proof.Machine

/-- Why a sequence has ended (10_state R23, 60_exceptions R301 to R304). -/
inductive EndReason where
  /-- Raised by META_END_OF_TRACK (R302). -/
  | endOfTrack
  /-- Raised by STOP (R303). -/
  | stop
  /-- Raised by the end of the stream inside an event, and by a resolved status with bit 7 clear
  (R304). -/
  | corruptStream
  deriving DecidableEq, Repr

/-- The engine's own fault codes (60_exceptions R306). -/
inductive FaultCode where
  /-- A data byte of a channel message has bit 7 set (20_memory R62). -/
  | badDataByte
  /-- The delay exceeds 0xFFFF ms under the policy `fault` (41_event_reader R153). -/
  | delayOverflow
  /-- A note-on at the greatest note-start counter (45_voice_allocator R255). -/
  | noteCounterOverflow
  deriving DecidableEq, Repr

/-- RUN (10_state R23). -/
inductive RunStatus where
  | running
  | ended (reason : EndReason)
  | faulted (code : FaultCode)
  deriving DecidableEq, Repr

/-- A record of `CH` (10_state R29). -/
structure Channel where
  instrument : U7
  bend       : BitVec 14
  deriving DecidableEq, Repr

/-- A record of `V` (10_state R31). The spec's −1 ("none") is `none` (log entry 4). -/
structure Voice where
  noteStart  : Nat
  note       : Option U7
  channel    : Option Chan
  instrument : Option U7
  deriving DecidableEq, Repr

/-- An item of the output port (20_memory R70). -/
inductive OutItem where
  | write (reg value : Byte)
  | delay (ms : BitVec 16)
  deriving DecidableEq, Repr

/-- Whether an output item is a register write. -/
def OutItem.isWrite : OutItem → Bool
  | .write _ _ => true
  | .delay _ => false

/-- An entry of the log port (60_exceptions R311), and the logged CorruptStream condition (R304).
The free-form detail is dropped but for the sysex bytes (log entry 7). -/
inductive LogEntry where
  | pressureIgnored
  | unknownController
  | markerIgnored
  | polyphonyOverflow
  | noteOffUnmatched
  | percNoteOffStale
  | freqOverflow
  | metaIgnored
  | unknownSystem
  | sysexData (bytes : List Byte)
  | corruptStream
  deriving DecidableEq, Repr

/-- A byte-addressed memory: (address, byte) pairs in one canonical form, addresses strictly rising
and no entry equal to `Memory.unlisted`. -/
abbrev Memory := List Host.Cell

/-- What an unlisted address reads as: 0x00, the reset contents of MIRROR (10_state R34). -/
def Memory.unlisted : Byte := 0x00

/-- The engine. `cfg` is configuration, not engine state (10_state R20, log entry 1); `out` and `log`
are what the two ports have carried since reset (log entry 7). -/
structure State where
  /-- The configuration of the run (00_scope R9, R10). -/
  cfg    : Config
  /-- RUN (R23). -/
  run    : RunStatus
  /-- PTR (R24). -/
  ptr    : Nat
  /-- RS (R25). -/
  rs     : Byte
  /-- RHY (R26). -/
  rhy    : Bool
  /-- TR (R27). -/
  tr     : Int
  /-- NC (R28). -/
  nc     : Nat
  /-- CH[0..15] (R29). -/
  ch     : Vector Channel 16
  /-- V[0..8] (R31). -/
  v      : Vector Voice 9
  /-- MIRROR[0x00..0xFF] (R34). -/
  mirror : Memory
  /-- The output port, oldest item first (20_memory R70). -/
  out    : List OutItem
  /-- The log port, oldest entry first (60_exceptions R310). -/
  log    : List LogEntry
  deriving DecidableEq, Repr

/-- Host-level faults of a step. The engine's own faults are states (`RunStatus.faulted`). -/
inductive Fault where
  /-- Raised by a tick, and by DELTA_TIME with a non-zero delta, in a state whose TPS is 0. Reset
  refuses that configuration and no tick may run (70_reset_and_hazards R331). Safe: no run from a
  reset reaches it (log entry 9). -/
  | configError
  deriving DecidableEq, Repr

/-- Refusals of a step. -/
inductive Refusal where
  /-- An instruction with no meaning yet, named by its mnemonic. Raised by no arm of `exec`. Safe. -/
  | notModelled (mnemonic : String)
  deriving DecidableEq, Repr

/-- The three outcomes of a step of this machine. -/
abbrev Outcome := Host.Outcome State Fault Refusal

/-- A channel record at reset (10_state R29). -/
def Channel.reset : Channel := ⟨0, 8192⟩

/-- A voice record at reset (10_state R31). -/
def Voice.reset : Voice := ⟨0, none, none, none⟩

/-- Every field of 10_state R39 at its reset value, under the configuration `cfg`; no output and no
log yet. -/
def State.initial (cfg : Config) : State where
  cfg    := cfg
  run    := .running
  ptr    := 0
  rs     := 0x00
  rhy    := false
  tr     := 0
  nc     := 0
  ch     := Vector.replicate 16 Channel.reset
  v      := Vector.replicate 9 Voice.reset
  mirror := []
  out    := []
  log    := []

/-- The machine right after reset with the default configuration (70_reset_and_hazards R330,
10_state R39): no preset writes, since PRESET_PERC_FREQS is false by default. -/
def State.reset : State := State.initial Config.default

end Sys2Proof.Machine
end

