-- ==== Sys2Proof/Machine/Ops.lean ====
section
/-! DEFINITION. The named operations over the stream, the register mirror, the tables and the ports
(spec 00_scope R13, 20_memory R60 to R70), and the raising of a termination, a fault or a warning
(60_exceptions R301, R305, R310). -/

namespace Sys2Proof.Machine

/-! ### Memory -/

/-- The byte at an address; an unlisted address reads `Memory.unlisted`. -/
def Memory.read : Memory → Nat → Byte
  | [], _ => Memory.unlisted
  | (k, b) :: m, a => if k = a then b else Memory.read m a

/-- An entry for a byte, or nothing where the byte is what an unlisted address reads as. -/
def Memory.entry (a : Nat) (b : Byte) (m : Memory) : Memory :=
  if b = Memory.unlisted then m else (a, b) :: m

/-- Write one byte, keeping the canonical form. -/
def Memory.write : Memory → Nat → Byte → Memory
  | [], a, b => Memory.entry a b []
  | (k, c) :: m, a, b =>
    if a < k then Memory.entry a b ((k, c) :: m)
    else if a = k then Memory.entry a b m
    else (k, c) :: Memory.write m a b

/-- The canonical form: addresses strictly rising, no entry equal to what an unlisted address reads
as. -/
abbrev Memory.wf (m : Memory) : Prop :=
  m.Pairwise (fun x y => x.1 < y.1) ∧ ∀ x ∈ m, x.2 ≠ Memory.unlisted

/-- Write a list of bytes at rising addresses. -/
def Memory.writeList : Memory → Nat → List Byte → Memory
  | m, _, [] => m
  | m, a, b :: bs => Memory.writeList (m.write a b) (a + 1) bs

/-! ### The music stream -/

/-- The stream of a list of bytes: index 0 is the first (20_memory R60). -/
def musicOfBytes (bytes : List Byte) : Music :=
  ⟨Memory.writeList [] 0 bytes, bytes.length⟩

/-- MemRead(a, 1) = M[a], defined for `a < L` (20_memory R60). -/
def State.streamByte (s : State) (a : Nat) : Byte := Memory.read s.cfg.music.cells a

/-- L (00_scope R9). -/
def State.streamLength (s : State) : Nat := s.cfg.music.length

/-- The bytes M[PTR..L-1] that successive ReadByte calls give, in order. At PTR ≥ L it is empty:
there ReadByte raises CorruptStream (20_memory R61). -/
def State.remaining (s : State) : List Byte :=
  (List.range' s.ptr (s.streamLength - s.ptr)).map s.streamByte

/-- PTR after `n` bytes have been read (20_memory R61). -/
def State.advance (s : State) (n : Nat) : State := { s with ptr := s.ptr + n }

/-- PTR ← PTR − 1, the running-status rewind (41_event_reader R156). -/
def State.rewind (s : State) : State := { s with ptr := s.ptr - 1 }

/-- RS ← b (10_state R25). -/
def State.setRs (s : State) (b : Byte) : State := { s with rs := b }

/-! ### Ports and raises -/

/-- warn(code): one entry on the log port, nothing else (60_exceptions R310). -/
def State.warn (s : State) (e : LogEntry) : State := { s with log := s.log ++ [e] }

/-- EmitDelay(ms) (20_memory R67). -/
def State.emitDelay (s : State) (ms : BitVec 16) : State := { s with out := s.out ++ [.delay ms] }

/-- raise Terminate(reason): RUN ← Ended(reason) and nothing else of the engine changes
(60_exceptions R301); a CorruptStream termination is also logged (R304). -/
def State.terminate (s : State) (r : EndReason) : State :=
  match r with
  | .endOfTrack => { s with run := .ended .endOfTrack }
  | .stop => { s with run := .ended .stop }
  | .corruptStream => { s.warn .corruptStream with run := .ended .corruptStream }

/-- raise Fault(code): RUN ← Faulted(code) and nothing else changes (60_exceptions R305). -/
def State.raiseFault (s : State) (c : FaultCode) : State := { s with run := .faulted c }

/-! ### The register mirror -/

/-- MIRROR[r] (10_state R34). -/
def State.mirrorAt (s : State) (r : Byte) : Byte := Memory.read s.mirror r.toNat

/-- WriteReg(r, v): the mirror update and the emitted Write, one indivisible action, never
suppressed (20_memory R66). -/
def State.writeReg (s : State) (r v : Byte) : State :=
  { s with mirror := Memory.write s.mirror r.toNat v, out := s.out ++ [.write r v] }

/-- A sequence of register writes in order. -/
def State.writeRegs (s : State) : List (Byte × Byte) → State
  | [] => s
  | (r, v) :: ws => (s.writeReg r v).writeRegs ws

/-! ### The channel and voice tables -/

/-- CH[c]. -/
def State.channel (s : State) (c : Chan) : Channel := s.ch[c]

/-- CH[c] ← x. -/
def State.setChannel (s : State) (c : Chan) (x : Channel) : State := { s with ch := s.ch.set c x }

/-- V[i]. -/
def State.voice (s : State) (i : VoiceId) : Voice := s.v[i]

/-- V[i] ← x. -/
def State.setVoice (s : State) (i : VoiceId) (x : Voice) : State := { s with v := s.v.set i x }

/-- BANK[k] (40_instrument_bank R130). -/
def State.bankAt (s : State) (k : U7) : Instrument := s.cfg.bank[k.toNat]'k.isLt

/-! ### The tick's result -/

/-- What a tick returns to the host (41_event_reader R159). -/
inductive TickResult where
  | more
  | ended (reason : EndReason)
  | faultStop (code : FaultCode)
  deriving DecidableEq, Repr

/-- The status a tick returns: read from RUN (41_event_reader R150, R159). -/
def State.tickResult (s : State) : TickResult :=
  match s.run with
  | .running => .more
  | .ended r => .ended r
  | .faulted c => .faultStop c

end Sys2Proof.Machine
end

