-- ==== Sys2Proof/Machine/Operands.lean ====
section
/-! DEFINITION. How operands are assembled and what they select (30_encoding R94, 20_memory R71,
45_voice_allocator R240, R250). -/

namespace Sys2Proof.Machine

/-- The pitch-bend value `d1 | (d2 << 7)`, least significant group first (30_encoding R94). -/
def bendValue (lsb msb : U7) : BitVec 14 := lsb.setWidth 14 ||| (msb.setWidth 14 <<< 7)

/-- The transpose of controller 0x68: the value itself (43_controllers R205). -/
def transposeUp (val : U7) : Int := (val.toNat : Int)

/-- The transpose of controller 0x69: the negated value (43_controllers R206, 30_encoding R94). -/
def transposeDown (val : U7) : Int := -(val.toNat : Int)

/-- N: how many voices are melodic, 6 while rhythm mode is on, else 9 (45_voice_allocator R240). -/
def melodicCount (rhy : Bool) : Nat := if rhy then 6 else 9

/-- All hardware voices, lowest index first. -/
def allVoices : List VoiceId := [0, 1, 2, 3, 4, 5, 6, 7, 8]

/-- Voices 0..N-1, lowest index first. -/
def melodicVoices (rhy : Bool) : List VoiceId := allVoices.take (melodicCount rhy)

/-- The five drums of rhythm mode (45_voice_allocator R250). -/
inductive Drum where
  | bass
  | snare
  | tom
  | cymbal
  | hihat
  deriving DecidableEq, Repr

/-- The drum of a logical channel: 11 bass drum, 12 snare, 13 tom, 14 cymbal, 15 hihat
(45_voice_allocator R250). -/
def drumOfChannel (c : Chan) : Option Drum :=
  if c = 11 then some .bass
  else if c = 12 then some .snare
  else if c = 13 then some .tom
  else if c = 14 then some .cymbal
  else if c = 15 then some .hihat
  else none

/-- The drum a note message on channel `c` plays, none where it takes the melodic path:
IsPerc(c) = RHY and 11 ≤ c ≤ 15 (45_voice_allocator R240). -/
def percDrum (rhy : Bool) (c : Chan) : Option Drum :=
  if rhy then drumOfChannel c else none

/-- PERC_VOICE: 11→6, 12→7, 13→8, 14→8, 15→7 (45_voice_allocator R250). -/
def Drum.voice : Drum → VoiceId
  | .bass => 6
  | .snare => 7
  | .tom => 8
  | .cymbal => 8
  | .hihat => 7

/-- PERC_BIT: the drum's bit of register 0xBD (45_voice_allocator R250, 20_memory R73). -/
def Drum.bit : Drum → Byte
  | .bass => 0x10
  | .snare => 0x08
  | .tom => 0x04
  | .cymbal => 0x02
  | .hihat => 0x01

/-- OPOFF(v), the modulator's operator offset (20_memory R71). -/
def opOffset (v : VoiceId) : Nat := v.val / 3 * 8 + v.val % 3

/-- The operator offset of voice `v`'s carrier: OPOFF(v) + 3 (20_memory R71). -/
def carOffset (v : VoiceId) : Nat := opOffset v + 3

/-- Src(I, role): the operator record that feeds a single-operator drum's slot, whose role is the
carrier or the modulator (45_voice_allocator R253). -/
def drumSource (p : PercSource) (i : Instrument) (carrier : Bool) : Operator :=
  match p with
  | .sameRole => if carrier then i.car else i.mod
  | .modulator => i.mod

end Sys2Proof.Machine
end

