-- ==== Sys2Proof/Machine/Flags.lean ====
section
/-! DEFINITION. The engine has no condition flags (00_scope R15); what it computes bit by bit are the
fields of the OPL registers it writes and modifies (20_memory R72 to R75, 46_frequency R281). -/

namespace Sys2Proof.Machine

/-- Register 0x20 + o: multiplier/AM/VIB/sustain flag (20_memory R72). -/
def reg20 (o : Nat) : Byte := BitVec.ofNat 8 (0x20 + o)
/-- Register 0x40 + o: key-scale/output level (20_memory R72). -/
def reg40 (o : Nat) : Byte := BitVec.ofNat 8 (0x40 + o)
/-- Register 0x60 + o: attack/decay (20_memory R72). -/
def reg60 (o : Nat) : Byte := BitVec.ofNat 8 (0x60 + o)
/-- Register 0x80 + o: sustain/release (20_memory R72). -/
def reg80 (o : Nat) : Byte := BitVec.ofNat 8 (0x80 + o)
/-- Register 0xE0 + o: waveform select (20_memory R72). -/
def regE0 (o : Nat) : Byte := BitVec.ofNat 8 (0xE0 + o)
/-- Register 0xA0 + v: F-number bits 7:0 (20_memory R74). -/
def regA0 (v : VoiceId) : Byte := BitVec.ofNat 8 (0xA0 + v.val)
/-- Register 0xB0 + v: key-on, block, F-number bits 9:8 (20_memory R74). -/
def regB0 (v : VoiceId) : Byte := BitVec.ofNat 8 (0xB0 + v.val)
/-- Register 0xC0 + v: connection (20_memory R72). -/
def regC0 (v : VoiceId) : Byte := BitVec.ofNat 8 (0xC0 + v.val)
/-- Register 0xBD: rhythm control (20_memory R73). -/
def regBD : Byte := 0xBD
/-- Register 0x53: the output level of voice 6's carrier (45_voice_allocator R252). -/
def reg53 : Byte := 0x53

/-- Bit 5 of 0xBD: rhythm enable (20_memory R73). -/
def rhythmBit : Byte := 0x20
/-- KEYON, bit 5 of 0xB0 + v (20_memory R74). -/
def keyOn : Byte := 0x20

/-- `x | bits`. -/
def setBits (x bits : Byte) : Byte := x ||| bits
/-- `x & ~bits`, the complement taken in eight bits (00_scope R11). -/
def clearBits (x bits : Byte) : Byte := x &&& ~~~bits

/-- 0xBD with its depth bits 7:6 loaded from bits 1:0 of `val`, bits 5:0 kept
(43_controllers R202). -/
def depthValue (old : Byte) (val : U7) : Byte :=
  (old &&& 0x3F) ||| ((val.setWidth 8 &&& 3) <<< 6)

/-- 0x53 with its output level, bits 5:0, replaced and bits 7:6 kept (45_voice_allocator R252). -/
def levelValue (old : Byte) (level : Nat) : Byte :=
  (old &&& 0xC0) ||| BitVec.ofNat 8 level

/-- `fn & 0xFF`, the value of register 0xA0 + v (46_frequency R281). -/
def fnumLow (fn : Nat) : Byte := BitVec.ofNat 8 fn

/-- The block as it is packed (46_frequency R281). -/
def packedBlock (p : BlockPacking) (blk : Nat) : Nat :=
  match p with
  | .truncate8 => blk
  | .mask3 => blk % 8

/-- Pack(blk, fn, key), the value of register 0xB0 + v: key-on, block and F-number bits 9:8, mod 256
(46_frequency R281). -/
def packKeyBlock (p : BlockPacking) (blk fn : Nat) (key : Bool) : Byte :=
  BitVec.ofNat 8 ((if key then 0x20 else 0) ||| (packedBlock p blk <<< 2) ||| ((fn >>> 8) &&& 3))

end Sys2Proof.Machine
end

