-- ==== Sys2Proof/Machine/Frequency.lean ====
section
/-! DEFINITION. The frequency calculator and the percussion velocity level (46_frequency R280 to R288),
in exact integer arithmetic. -/

namespace Sys2Proof.Machine

/-- The greatest number below `2^bits` above `acc` that `ok` admits, found bit by bit from the top;
`ok` is meant to be true up to some number and false above it. -/
def searchMax (ok : Nat → Bool) : Nat → Nat → Nat
  | 0, acc => acc
  | bits + 1, acc =>
    if ok (acc + 2 ^ bits) then searchMax ok bits (acc + 2 ^ bits) else searchMax ok bits acc

/-- isqrt(x): the largest s with s*s ≤ x, for x below 2^32 (00_scope R11). -/
def isqrt (x : Nat) : Nat := searchMax (fun r => decide (r * r ≤ x)) 16 0

/-- Block(n) = n div 12, less one where above 1 (46_frequency R280). -/
def blockOf (n : Nat) : Nat := if 1 < n / 12 then n / 12 - 1 else n / 12

/-- The exponent of two in the reference formula, in units of 1/98304 octave (12 * 8192 to the
octave): e / 12 + 20 − Block(n), where e = (n − 69) + (bend − 8192)/8192 + tr/128 semitones
(46_frequency R282). -/
def fnumExponent (n bend : Nat) (tr : Int) : Int :=
  ((n : Int) - 69) * 8192 + ((bend : Int) - 8192) + 64 * tr + (20 - (blockOf n : Int)) * 98304

/-- Whether `f ≤ x + 1/2` for x = 440 * 2^(p/q) / 50000: that is (2f − 1) * 25000 ≤ 440 * 2^(p/q),
compared after raising both sides to the q-th power (46_frequency R282; log entry 10). -/
def fnumAtMost (p q f : Nat) : Bool :=
  decide (((2 * f - 1) * 25000) ^ q ≤ 440 ^ q * 2 ^ p)

/-- FNUM_FN's reference formula, floor(x + 1/2) with x = 440 * 2^(e/12) * 2^(20 − Block(n)) / 50000
(46_frequency R282): the exponent as a reduced fraction p/q of an octave, and the greatest 11-bit f
with f ≤ x + 1/2 (log entry 10). -/
def fnumReference (n bend : Nat) (tr : Int) : Nat :=
  let p := (fnumExponent n bend tr).toNat
  let g := Nat.gcd p 98304
  searchMax (fnumAtMost (p / g) (98304 / g)) 11 0

/-- The value of a host's FNUM_FN: that of the first entry at the arguments, else `other`
(00_scope R10, log entry 6). -/
def lookupFnum (other n bend : Nat) (tr : Int) : List FnumEntry → Nat
  | [] => other
  | e :: es =>
    if e.note = n ∧ e.bend = bend ∧ e.transpose = tr then e.fnum else lookupFnum other n bend tr es

/-- FNUM_FN (00_scope R10, 46_frequency R282). -/
def fnumFn (k : FnumFn) (n bend : Nat) (tr : Int) : Nat :=
  match k with
  | .reference => fnumReference n bend tr
  | .table entries other => lookupFnum other n bend tr entries

/-- FNumber's value: reduced mod 1024 where it exceeds ten bits (46_frequency R284). -/
def reduceFnum (f : Nat) : Nat := if 1023 < f then f % 1024 else f

/-- The F-number a note-on of note `n` on channel `c` asks for, before R284's reduction
(46_frequency R285). -/
def State.rawFnum (s : State) (c : Chan) (n : U7) : Nat :=
  fnumFn s.cfg.fnumFn n.toNat (s.channel c).bend.toNat s.tr

/-- The log entry FreqOverflow where the F-number exceeds ten bits (46_frequency R284). -/
def State.warnFreq (s : State) (c : Chan) (n : U7) : State :=
  if 1023 < s.rawFnum c n then s.warn .freqOverflow else s

/-- PercLevel(vel) = max(0, min(0x3F, trunc(37 − sqrt(16 * vel)))), and 0 above velocity 0x7B, in
R287's exact integer form for vel ≥ 1 (46_frequency R287). -/
def percLevel (vel : Nat) : Nat :=
  if 0x7B < vel then 0 else min 0x3F (36 - isqrt (16 * vel - 1))

end Sys2Proof.Machine
end

