-- ==== Sys2Proof/Machine/Allocator.lean ====
section
/-! DEFINITION. The channel/voice allocator: note-on and note-off, melodic and percussion
(45_voice_allocator R240 to R255). -/

namespace Sys2Proof.Machine

/-! ### Binding -/

/-- The writes of OperatorLoad(o, op), in order (45_voice_allocator R247). -/
def operatorWrites (o : Nat) (op : Operator) : List (Byte × Byte) :=
  [(reg20 o, op.b20), (reg40 o, op.b40), (reg60 o, op.b60), (reg80 o, op.b80), (regE0 o, op.bE0)]

/-- The eleven writes that bind a whole instrument to a voice (45_voice_allocator R246). -/
def bindWrites (v : VoiceId) (i : Instrument) : List (Byte × Byte) :=
  operatorWrites (opOffset v) i.mod ++ operatorWrites (carOffset v) i.car ++ [(regC0 v, i.conn)]

/-- V[v].instrument ← x. -/
def State.setVoiceInstrument (s : State) (v : VoiceId) (x : Option U7) : State :=
  s.setVoice v { s.voice v with instrument := x }

/-- BindMel(v, k) (45_voice_allocator R246). -/
def bindMel (v : VoiceId) (k : U7) (s : State) : State :=
  (s.writeRegs (bindWrites v (s.bankAt k))).setVoiceInstrument v (some k)

/-- The writes of BindPerc: both operators and the connection for the bass drum, one operator for
every other drum (45_voice_allocator R253). -/
def percBindWrites (p : PercSource) (d : Drum) (i : Instrument) : List (Byte × Byte) :=
  match d with
  | .bass => bindWrites 6 i
  | .snare => operatorWrites (carOffset 7) (drumSource p i true)
  | .tom => operatorWrites (opOffset 8) (drumSource p i false)
  | .cymbal => operatorWrites (carOffset 8) (drumSource p i true)
  | .hihat => operatorWrites (opOffset 7) (drumSource p i false)

/-- BindPerc(c, k): the drum's operators are rewritten and its voice holds no whole instrument
(45_voice_allocator R253). -/
def bindPerc (d : Drum) (k : U7) (s : State) : State :=
  (s.writeRegs (percBindWrites s.cfg.percSource d (s.bankAt k))).setVoiceInstrument d.voice none

/-! ### Choosing a voice -/

/-- Whether V[i] is free (10_state R31). -/
def State.isFree (s : State) (i : VoiceId) : Bool := decide ((s.voice i).noteStart = 0)

/-- FindVoice's scan over the given voices in order: each free voice becomes the candidate, and a free
voice already bound to `k` ends the scan (45_voice_allocator R242). -/
def scanFree (s : State) (k : U7) : List VoiceId → Option VoiceId → Option VoiceId
  | [], cand => cand
  | i :: is, cand =>
    if s.isFree i then
      if (s.voice i).instrument = some k then some i else scanFree s k is (some i)
    else scanFree s k is cand

/-- The voice with the smallest note-start of `best` and the given voices, the earliest among equals
(45_voice_allocator R243). -/
def oldestFrom (s : State) (best : VoiceId) : List VoiceId → VoiceId
  | [] => best
  | i :: is => oldestFrom s (if (s.voice i).noteStart < (s.voice best).noteStart then i else best) is

/-- The free voice FindVoice chooses, none where all of 0..N-1 sound (45_voice_allocator R242). -/
def freeVoice (s : State) (k : U7) : Option VoiceId :=
  scanFree s k (melodicVoices s.rhy).reverse none

/-- The voice Steal chooses: the oldest of 0..N-1 (45_voice_allocator R243). -/
def stolenVoice (s : State) : VoiceId := oldestFrom s 0 (melodicVoices s.rhy)

/-- FindVoice(k): the chosen voice (45_voice_allocator R242, R243). -/
def findVoice (s : State) (k : U7) : VoiceId := (freeVoice s k).getD (stolenVoice s)

/-- The log entry PolyphonyOverflow where FindVoice steals (45_voice_allocator R243). -/
def warnSteal (s : State) (k : U7) : State :=
  match freeVoice s k with
  | some _ => s
  | none => s.warn .polyphonyOverflow

/-! ### The note-start counter -/

/-- The greatest note-start counter, 2^NC_WIDTH − 1 (10_state R28). -/
def State.ncMax (s : State) : Nat := 2 ^ s.cfg.ncWidth - 1

/-- NC ← NC + 1, and the new value, the note and the channel on V[v] (45_voice_allocator R241, R251,
R255). -/
def State.stamp (s : State) (v : VoiceId) (n : U7) (c : Chan) : State :=
  { s with nc := s.nc + 1 }.setVoice v
    { s.voice v with noteStart := s.nc + 1, note := some n, channel := some c }

/-! ### Melodic notes -/

/-- The two frequency writes of voice `v`: 0xA0+v then 0xB0+v (45_voice_allocator R241, R251). -/
def freqWrites (p : BlockPacking) (v : VoiceId) (blk fn : Nat) (key : Bool) : List (Byte × Byte) :=
  [(regA0 v, fnumLow fn), (regB0 v, packKeyBlock p blk fn key)]

/-- BindMel where the voice does not already hold slot `k` (45_voice_allocator R244). -/
def rebind (v : VoiceId) (k : U7) (s : State) : State :=
  if (s.voice v).instrument = some k then s else bindMel v k s

/-- MelNoteOn(c, n, blk, fn) (45_voice_allocator R241): at the greatest counter IncNC raises after the
binding writes, which stay. -/
def melNoteOn (c : Chan) (n : U7) (blk fn : Nat) (s : State) : State :=
  let k := (s.channel c).instrument
  let v := findVoice s k
  let s1 := rebind v k (warnSteal s k)
  if s1.nc = s1.ncMax then s1.raiseFault .noteCounterOverflow
  else (s1.stamp v n c).writeRegs (freqWrites s.cfg.blockPacking v blk fn true)

/-- Whether V[i] sounds note `n` of channel `c` (45_voice_allocator R245). -/
def State.sounds (s : State) (c : Chan) (n : U7) (i : VoiceId) : Bool :=
  decide ((s.voice i).noteStart ≠ 0 ∧ (s.voice i).channel = some c ∧ (s.voice i).note = some n)

/-- V[i].noteStart ← 0, the other fields kept (10_state R32). -/
def State.freeVoiceAt (s : State) (i : VoiceId) : State :=
  s.setVoice i { s.voice i with noteStart := 0 }

/-- MelNoteOff(c, n): the lowest voice of 0..N-1 that sounds (c, n) is freed and its key-on bit
cleared; none is a warning only (45_voice_allocator R245). -/
def melNoteOff (c : Chan) (n : U7) (s : State) : State :=
  match (melodicVoices s.rhy).find? (s.sounds c n) with
  | some i => (s.freeVoiceAt i).writeReg (regB0 i) (clearBits (s.mirrorAt (regB0 i)) keyOn)
  | none => s.warn .noteOffUnmatched

/-! ### Percussion -/

/-- WriteBDLevel(vel), for the bass drum only (45_voice_allocator R251, R252). -/
def writeLevel (d : Drum) (vel : U7) (s : State) : State :=
  match d with
  | .bass => s.writeReg reg53 (levelValue (s.mirrorAt reg53) (percLevel vel.toNat))
  | .snare => s
  | .tom => s
  | .cymbal => s
  | .hihat => s

/-- The drum's bit of 0xBD cleared, always written (45_voice_allocator R251, R254). -/
def clearDrum (d : Drum) (s : State) : State :=
  s.writeReg regBD (clearBits (s.mirrorAt regBD) d.bit)

/-- The drum's bit of 0xBD set (45_voice_allocator R251). -/
def setDrum (d : Drum) (s : State) : State :=
  s.writeReg regBD (setBits (s.mirrorAt regBD) d.bit)

/-- PercNoteOn(c, n, vel, blk, fn): bind, level, retrigger, frequency with key-on 0, then the stamp,
where IncNC raises after all the writes (45_voice_allocator R251). -/
def percNoteOn (d : Drum) (c : Chan) (n vel : U7) (blk fn : Nat) (s : State) : State :=
  let s1 := writeLevel d vel (bindPerc d (s.channel c).instrument s)
  let s2 := setDrum d (clearDrum d s1)
  let s3 := s2.writeRegs (freqWrites s.cfg.blockPacking d.voice blk fn false)
  if s3.nc = s3.ncMax then s3.raiseFault .noteCounterOverflow
  else s3.stamp d.voice n c

/-- PercNoteOff(c, n): only the recorded note is compared (45_voice_allocator R254). -/
def percNoteOff (d : Drum) (n : U7) (s : State) : State :=
  if (s.voice d.voice).note = some n then (clearDrum d s).freeVoiceAt d.voice
  else s.warn .percNoteOffStale

/-! ### Entry points -/

/-- NoteOn(c, n, vel), vel in 1..127 (45_voice_allocator R240): the frequency first, whose overflow is
logged before any register write (46_frequency R285). -/
def noteOn (c : Chan) (n vel : U7) (s : State) : State :=
  let blk := blockOf n.toNat
  let fn := reduceFnum (s.rawFnum c n)
  match percDrum s.rhy c with
  | some d => percNoteOn d c n vel blk fn (s.warnFreq c n)
  | none => melNoteOn c n blk fn (s.warnFreq c n)

/-- NoteOff(c, n) (45_voice_allocator R240). -/
def noteOff (c : Chan) (n : U7) (s : State) : State :=
  match percDrum s.rhy c with
  | some d => percNoteOff d n s
  | none => melNoteOff c n s

end Sys2Proof.Machine
end

