-- ==== Sys2Proof/Machine/Controllers.lean ====
section
/-! DEFINITION. The controller handler (43_controllers R200 to R207). No controller uses its channel,
`CH` or `V` (R201). -/

namespace Sys2Proof.Machine

/-- CtrlAmVib(val) (R202). -/
def ctrlAmVib (val : U7) (s : State) : State := s.writeReg regBD (depthValue (s.mirrorAt regBD) val)

/-- CtrlMarker(val) (R203). -/
def ctrlMarker (s : State) : State := s.warn .markerIgnored

/-- RHY ← b (10_state R26). -/
def State.setRhythm (s : State) (b : Bool) : State := { s with rhy := b }

/-- CtrlRhythm(val): a non-zero value enables, zero disables; one write always (R204). -/
def ctrlRhythm (val : U7) (s : State) : State :=
  if val ≠ 0 then (s.setRhythm true).writeReg regBD (setBits (s.mirrorAt regBD) rhythmBit)
  else (s.setRhythm false).writeReg regBD (clearBits (s.mirrorAt regBD) rhythmBit)

/-- TR ← t (10_state R27). -/
def State.setTranspose (s : State) (t : Int) : State := { s with tr := t }

/-- CtrlOther(num, val) (R207). -/
def ctrlOther (s : State) : State := s.warn .unknownController

/-- Controller(num, val) (R200). -/
def controllerEffect (num val : U7) (s : State) : State :=
  if num = 0x63 then ctrlAmVib val s
  else if num = 0x66 then ctrlMarker s
  else if num = 0x67 then ctrlRhythm val s
  else if num = 0x68 then s.setTranspose (transposeUp val)
  else if num = 0x69 then s.setTranspose (transposeDown val)
  else ctrlOther s

/-- CTRL_AMVIB (R202). -/
def execCtrlAmvib (_c : Chan) (val : U7) (s : State) : Outcome := .next (ctrlAmVib val s)

/-- CTRL_MARKER (R203). -/
def execCtrlMarker (_c : Chan) (_val : U7) (s : State) : Outcome := .next (ctrlMarker s)

/-- CTRL_RHYTHM (R204). -/
def execCtrlRhythm (_c : Chan) (val : U7) (s : State) : Outcome := .next (ctrlRhythm val s)

/-- CTRL_TRANSPOSE_UP (R205). -/
def execCtrlTransposeUp (_c : Chan) (val : U7) (s : State) : Outcome :=
  .next (s.setTranspose (transposeUp val))

/-- CTRL_TRANSPOSE_DOWN (R206). -/
def execCtrlTransposeDown (_c : Chan) (val : U7) (s : State) : Outcome :=
  .next (s.setTranspose (transposeDown val))

/-- CTRL_OTHER (R207). -/
def execCtrlOther (_c : Chan) (_num _val : U7) (s : State) : Outcome := .next (ctrlOther s)

end Sys2Proof.Machine
end

