-- ==== Sys2Proof/Machine/ChannelMessages.lean ====
section
/-! DEFINITION. The channel messages (42_channel_messages R180 to R188). Their data bytes have been read
before a meaning runs (41_event_reader R160). -/

namespace Sys2Proof.Machine

/-- NOTE_OFF (R181). -/
def execNoteOff (c : Chan) (n _vel : U7) (s : State) : Outcome := .next (noteOff c n s)

/-- NOTE_ON (R182): velocity 0 is exactly a note off. -/
def execNoteOn (c : Chan) (n vel : U7) (s : State) : Outcome :=
  if vel = 0 then .next (noteOff c n s) else .next (noteOn c n vel s)

/-- POLY_PRESSURE (R183). -/
def execPolyPressure (_c : Chan) (_n _p : U7) (s : State) : Outcome := .next (s.warn .pressureIgnored)

/-- CONTROLLER (R184): dispatched by the controller handler; the channel is not used (R185). -/
def execController (_c : Chan) (num val : U7) (s : State) : Outcome := .next (controllerEffect num val s)

/-- PROGRAM (R186). -/
def execProgram (c : Chan) (p : U7) (s : State) : Outcome :=
  .next (s.setChannel c { s.channel c with instrument := p })

/-- CHAN_PRESSURE (R187). -/
def execChanPressure (_c : Chan) (_p : U7) (s : State) : Outcome := .next (s.warn .pressureIgnored)

/-- PITCH_BEND (R188). -/
def execPitchBend (c : Chan) (lsb msb : U7) (s : State) : Outcome :=
  .next (s.setChannel c { s.channel c with bend := bendValue lsb msb })

end Sys2Proof.Machine
end

