-- ==== Sys2Proof/Machine/EventReader.lean ====
section
/-! DEFINITION. The two prefixes of an event: DELTA_TIME and RUNNING_STATUS (41_event_reader R152 to
R157). -/

namespace Sys2Proof.Machine

/-- What DelayMs gives: a u16, or DelayOverflow (41_event_reader R153). -/
def delayMs (policy : DelayPolicy) (ms : Nat) : Option (BitVec 16) :=
  if 0xFFFF < ms then
    match policy with
    | .fault => none
    | .truncate16 => some (BitVec.ofNat 16 (ms % 65536))
    | .saturate => some 0xFFFF
  else some (BitVec.ofNat 16 ms)

/-- (delta * 1000) div TPS, exact (41_event_reader R153). -/
def exactMs (delta : Nat) (tps : BitVec 16) : Nat := delta * 1000 / tps.toNat

/-- EmitDelay(DelayMs(delta)), or the fault DelayOverflow (41_event_reader R153, R154). -/
def emitDelta (delta : Nat) (s : State) : State :=
  match delayMs s.cfg.delayPolicy (exactMs delta s.cfg.tps) with
  | some ms => s.emitDelay ms
  | none => s.raiseFault .delayOverflow

/-- DELTA_TIME: no Delay for delta 0, exactly one for every other (41_event_reader R150, R153, R154).
A TPS of 0 is a configuration Reset refuses (70_reset_and_hazards R331, log entry 9). -/
def execDeltaTime (delta : Nat) (s : State) : Outcome :=
  if delta = 0 then .next s
  else if s.cfg.tps = 0 then .fault .configError
  else .next (emitDelta delta s)

/-- RUNNING_STATUS: the byte just read is given back; a stored status with bit 7 clear terminates with
CorruptStream (41_event_reader R150, R156, R157). The message then follows the row of RS. -/
def execRunningStatus (_x : U7) (s : State) : Outcome :=
  if s.rs.msb then .next s.rewind else .next (s.rewind.terminate .corruptStream)

end Sys2Proof.Machine
end

