-- ==== Sys2Proof/Machine/SystemMessages.lean ====
section
/-! DEFINITION. The system and meta messages (44_system_messages R215 to R233). Their payload has been
read, and the status stored in RS, before a meaning runs (R215). -/

namespace Sys2Proof.Machine

/-- The bytes a sysex message reads after its status, terminator included (R216). -/
def sysexBytes (payload : List U7) (q : U7) : List Byte :=
  payload.map dataByte ++ [dataByte q ||| 0x80]

/-- SYSEX (R216): the bytes are echoed to the log. -/
def execSysex (payload : List U7) (q : U7) (s : State) : Outcome :=
  .next (s.warn (.sysexData (sysexBytes payload q)))

/-- MTC_QUARTER_FRAME (R217): the payload byte is skipped. -/
def execMtcQuarterFrame (_p : Byte) (s : State) : Outcome := .next s

/-- SONG_POSITION (R218). -/
def execSongPosition (_p1 _p2 : Byte) (s : State) : Outcome := .next s

/-- SONG_SELECT (R219). -/
def execSongSelect (_p : Byte) (s : State) : Outcome := .next s

/-- SYS_UNDEFINED_F4 (R220). -/
def execSysUndefinedF4 (s : State) : Outcome := .next (s.warn .unknownSystem)

/-- SYS_UNDEFINED_F5 (R221). -/
def execSysUndefinedF5 (s : State) : Outcome := .next (s.warn .unknownSystem)

/-- TUNE_REQUEST (R222): no action. -/
def execTuneRequest (s : State) : Outcome := .next s

/-- END_SYSEX as a status byte (R223): no action, no warning. -/
def execEndSysex (s : State) : Outcome := .next s

/-- TIMING_CLOCK (R224): no action. -/
def execTimingClock (s : State) : Outcome := .next s

/-- SYS_UNDEFINED_F9 (R225). -/
def execSysUndefinedF9 (s : State) : Outcome := .next (s.warn .unknownSystem)

/-- START (R226): no action; it resets nothing. -/
def execStart (s : State) : Outcome := .next s

/-- CONTINUE (R227): no action. -/
def execContinue (s : State) : Outcome := .next s

/-- STOP (R228): Terminate(Stop). -/
def execStop (s : State) : Outcome := .next (s.terminate .stop)

/-- SYS_UNDEFINED_FD (R229). -/
def execSysUndefinedFD (s : State) : Outcome := .next (s.warn .unknownSystem)

/-- ACTIVE_SENSING (R230): no action. -/
def execActiveSensing (s : State) : Outcome := .next s

/-- META_END_OF_TRACK (R232): Terminate(EndOfTrack). -/
def execMetaEndOfTrack (s : State) : Outcome := .next (s.terminate .endOfTrack)

/-- META_OTHER (R233): no length and no data bytes are read. -/
def execMetaOther (_t : Byte) (s : State) : Outcome := .next (s.warn .metaIgnored)

end Sys2Proof.Machine
end

