-- ==== Sys2Proof/Machine/Dispatch.lean ====
section
/-! DEFINITION. The dispatch: one arm per constructor of `Instr`, each a direct call of its meaning. -/

namespace Sys2Proof.Machine

def exec (i : Instr) (s : State) : Host.Outcome State Fault Refusal :=
  match i with
  | .deltaTime delta => Sys2Proof.Machine.execDeltaTime delta s
  | .noteOff c n vel => Sys2Proof.Machine.execNoteOff c n vel s
  | .noteOn c n vel => Sys2Proof.Machine.execNoteOn c n vel s
  | .polyPressure c n p => Sys2Proof.Machine.execPolyPressure c n p s
  | .controller c num val => Sys2Proof.Machine.execController c num val s
  | .ctrlAmvib c val => Sys2Proof.Machine.execCtrlAmvib c val s
  | .ctrlMarker c val => Sys2Proof.Machine.execCtrlMarker c val s
  | .ctrlRhythm c val => Sys2Proof.Machine.execCtrlRhythm c val s
  | .ctrlTransposeUp c val => Sys2Proof.Machine.execCtrlTransposeUp c val s
  | .ctrlTransposeDown c val => Sys2Proof.Machine.execCtrlTransposeDown c val s
  | .ctrlOther c num val => Sys2Proof.Machine.execCtrlOther c num val s
  | .program c p => Sys2Proof.Machine.execProgram c p s
  | .chanPressure c p => Sys2Proof.Machine.execChanPressure c p s
  | .pitchBend c lsb msb => Sys2Proof.Machine.execPitchBend c lsb msb s
  | .sysex payload q => Sys2Proof.Machine.execSysex payload q s
  | .mtcQuarterFrame p => Sys2Proof.Machine.execMtcQuarterFrame p s
  | .songPosition p1 p2 => Sys2Proof.Machine.execSongPosition p1 p2 s
  | .songSelect p => Sys2Proof.Machine.execSongSelect p s
  | .sysUndefinedF4 => Sys2Proof.Machine.execSysUndefinedF4 s
  | .sysUndefinedF5 => Sys2Proof.Machine.execSysUndefinedF5 s
  | .tuneRequest => Sys2Proof.Machine.execTuneRequest s
  | .endSysex => Sys2Proof.Machine.execEndSysex s
  | .timingClock => Sys2Proof.Machine.execTimingClock s
  | .sysUndefinedF9 => Sys2Proof.Machine.execSysUndefinedF9 s
  | .start => Sys2Proof.Machine.execStart s
  | .continuePlay => Sys2Proof.Machine.execContinue s
  | .stop => Sys2Proof.Machine.execStop s
  | .sysUndefinedFD => Sys2Proof.Machine.execSysUndefinedFD s
  | .activeSensing => Sys2Proof.Machine.execActiveSensing s
  | .metaEndOfTrack => Sys2Proof.Machine.execMetaEndOfTrack s
  | .metaOther t => Sys2Proof.Machine.execMetaOther t s
  | .runningStatus x => Sys2Proof.Machine.execRunningStatus x s

end Sys2Proof.Machine
end

