-- ==== Sys2Proof/Machine/Tick.lean ====
section
/-! DEFINITION. tick(): one delta time, its delay, the resolved status and one message
(41_event_reader R150 to R161). -/

namespace Sys2Proof.Machine

/-- The rest of a tick after one of its parts: it runs only where the engine is still Running, since
a raise ends the tick (00_scope R14). -/
def andThen (o : Outcome) (k : State → Outcome) : Outcome :=
  match o with
  | .next s => if s.run = .running then k s else .next s
  | .fault f => .fault f
  | .refused r => .refused r

/-- Dispatch(st): read the message's data or payload bytes, all of them before any effect (R158, R160),
then run it. The end of the stream raises CorruptStream with PTR at L, a data byte with bit 7 set
BadDataByte with PTR after it (R161). -/
def dispatch (st : Byte) (s : State) : Outcome :=
  match decodeBody st s.remaining with
  | .instr i used => exec i (s.advance used)
  | .truncated used => .next ((s.advance used).terminate .corruptStream)
  | .badDataByte used => .next ((s.advance used).raiseFault .badDataByte)
  | .noStatus => .next (s.terminate .corruptStream)

/-- The message of an event (R150, R155 to R157): a status byte is stored in RS before its data bytes
are read; a byte with bit 7 clear is the running-status form. -/
def readMessage (s : State) : Outcome :=
  match s.remaining with
  | [] => .next (s.terminate .corruptStream)
  | b :: _ =>
    if b.msb then dispatch b ((s.advance 1).setRs b)
    else andThen (exec (.runningStatus (low7 b)) (s.advance 1)) fun s' => dispatch s'.rs s'

/-- One event of a running engine (R150, R152): the delta time, then its delay, then the message. -/
def readEvent (s : State) : Outcome :=
  match decodeVlq s.remaining with
  | .truncated used => .next ((s.advance used).terminate .corruptStream)
  | .value delta used => andThen (exec (.deltaTime delta) (s.advance used)) readMessage

/-- tick() (R150). An engine that is not Running does nothing (R151). No tick may run with TPS = 0
(70_reset_and_hazards R331, log entry 9). -/
def tick (s : State) : Outcome :=
  if s.run ≠ .running then .next s
  else if s.cfg.tps = 0 then .fault .configError
  else readEvent s

end Sys2Proof.Machine
end

