-- ==== Sys2Proof/Machine/Step.lean ====
section
/-! DEFINITION. The step of the machine, one tick (41_event_reader R150), and the placing of an
instruction where the next tick reads it. -/

namespace Sys2Proof.Machine

/-- One step: one tick (41_event_reader R150, 92_eei_decisions D2). -/
def step (s : State) : Host.Outcome State Fault Refusal := tick s

/-- `s` with the event "delta 0, then the instruction of the opcode-table word" stored in the music
stream at PTR and RUN = Running, so that the next step runs that instruction (log entry 12). -/
def State.withFetchWord (s : State) (nbits w : Nat) : State :=
  let bytes := 0x00 :: tableWordBytes nbits w
  { s with
    run := .running
    cfg := { s.cfg with music :=
      ⟨Memory.writeList s.cfg.music.cells s.ptr bytes,
        max s.cfg.music.length (s.ptr + bytes.length)⟩ } }

end Sys2Proof.Machine
end

