-- ==== Sys2Proof/Machine/Reset.lean ====
section
/-! DEFINITION. The host's side of the interface: Reset with its configuration check and the optional
presets, and the tick loop (70_reset_and_hazards R330 to R340). -/

namespace Sys2Proof.Machine

/-- Load and configuration errors, raised before any tick (60_exceptions R307). -/
inductive LoadError where
  /-- The first four bytes are not "CTMF". -/
  | badMagic
  /-- The version is neither 0x0100 nor 0x0101. -/
  | unsupportedVersion
  /-- The input is too short for the header or for the declared records. -/
  | truncatedInput
  /-- More than 128 declared instruments. -/
  | instrumentCountRange
  /-- TPS = 0 at reset. -/
  | configError
  deriving DecidableEq, Repr

/-- A value, or the load error that stops initialization (60_exceptions R307). -/
inductive Loaded (α : Type) where
  | ok (x : α)
  | error (e : LoadError)
  deriving DecidableEq, Repr

/-- The two writes of one preset, key-on 0 (70_reset_and_hazards R333). -/
def presetWrites (p : Preset) : List (Byte × Byte) :=
  [(regA0 p.voice, fnumLow p.fnum.toNat),
   (regB0 p.voice, BitVec.ofNat 8 ((p.block.toNat <<< 2) ||| (p.fnum.toNat >>> 8)))]

/-- PresetPercFreqs(): the presets in list order (70_reset_and_hazards R333). -/
def presetPercFreqs (s : State) : State :=
  s.writeRegs (s.cfg.presetValues.flatMap presetWrites)

/-- Reset(config): refuses TPS = 0, puts every field at its reset value, and makes the preset writes
where they are asked for (70_reset_and_hazards R330, R331, R333). It takes no earlier state, so it may
be applied at any time (R335). -/
def resetEngine (cfg : Config) : Loaded State :=
  if cfg.tps = 0 then .error .configError
  else if cfg.presetPercFreqs then .ok (presetPercFreqs (State.initial cfg))
  else .ok (State.initial cfg)

/-- HostRun(): tick until a result other than More, at most `calls` times (70_reset_and_hazards
R340). -/
def hostRun : Nat → State → Outcome
  | 0, s => .next s
  | calls + 1, s =>
    match step s with
    | .next t => if t.run = .running then hostRun calls t else .next t
    | .fault f => .fault f
    | .refused r => .refused r

end Sys2Proof.Machine
end

