-- ==== Sys2Proof/Machine/Loader.lean ====
section
/-! DEFINITION. The host loader: the CMF header check and the instrument-bank load that build the
engine's configuration (40_instrument_bank R130 to R139). It is the host's duty at boot, no step of
the block (00_scope R5). -/

namespace Sys2Proof.Machine

/-- The byte at `a`, 0 past the end (the callers have checked the length). -/
def fileByte (file : List Byte) (a : Nat) : Byte := file.getD a 0

/-- The 16-bit little-endian field at `a` (20_memory R65). -/
def fileU16 (file : List Byte) (a : Nat) : Nat :=
  (fileByte file a).toNat + 256 * (fileByte file (a + 1)).toNat

/-- "CTMF" (40_instrument_bank R136). -/
def magicBytes : List Byte := [0x43, 0x54, 0x4D, 0x46]

/-! ### The instrument bank -/

/-- decode(r[0..10]) of the record at offset `a` under a record layout (40_instrument_bank R132). -/
def decodeRecord (layout : RecordLayout) (file : List Byte) (a : Nat) : Instrument where
  mod := ⟨fileByte file (a + layout.modB20.val), fileByte file (a + layout.modB40.val),
    fileByte file (a + layout.modB60.val), fileByte file (a + layout.modB80.val),
    fileByte file (a + layout.modBE0.val)⟩
  car := ⟨fileByte file (a + layout.carB20.val), fileByte file (a + layout.carB40.val),
    fileByte file (a + layout.carB60.val), fileByte file (a + layout.carB80.val),
    fileByte file (a + layout.carBE0.val)⟩
  conn := fileByte file (a + layout.conn.val)

/-- Records at offset `a`, `n` of them: 11 meaningful bytes each, which must be present, then 5 bytes of
padding, which need not be (40_instrument_bank R131). -/
def loadRecords (layout : RecordLayout) (file : List Byte) : Nat → Nat → Option (List Instrument)
  | 0, _ => some []
  | n + 1, a =>
    if file.length < a + 11 then none
    else (loadRecords layout file n (a + 16)).map (decodeRecord layout file a :: ·)

/-- The 128 slots: the declared records, then `DEFAULT_PATCHES[k mod 16]` (40_instrument_bank R131,
R134). -/
def fillBank (patches : Fin 16 → Instrument) (declared : List Instrument) : Vector Instrument 128 :=
  ⟨((List.range 128).map fun k =>
      (declared[k]?).getD (patches ⟨k % 16, Nat.mod_lt k (by decide)⟩)).toArray, by simp⟩

/-- load(count, bytes at the instrument offset) (40_instrument_bank R131). -/
def loadBank (layout : RecordLayout) (patches : Fin 16 → Instrument) (file : List Byte)
    (a count : Nat) : Loaded (Vector Instrument 128) :=
  if 128 < count then .error .instrumentCountRange
  else
    match loadRecords layout file count a with
    | some declared => .ok (fillBank patches declared)
    | none => .error .truncatedInput

/-! ### The header -/

/-- The header's fields (40_instrument_bank R137). Ticks per quarter, the text offsets, the channel map
and the tempo are read and used by no rule (R138, R139). -/
structure Header where
  version          : Nat
  instrumentOffset : Nat
  musicOffset      : Nat
  ticksPerQuarter  : Nat
  ticksPerSecond   : Nat
  titleOffset      : Nat
  composerOffset   : Nat
  remarksOffset    : Nat
  channelMap       : List Byte
  instrumentCount  : Nat
  tempo            : Option Nat
  deriving DecidableEq, Repr

/-- The number of bytes a header of the version needs: an 8-bit count and no tempo for 0x0100, a 16-bit
count and a tempo for 0x0101 (40_instrument_bank R137). -/
def headerLength (layout : HeaderLayout) (version : Nat) : Nat :=
  [layout.instrumentOffset + 2, layout.musicOffset + 2, layout.ticksPerQuarter + 2,
    layout.ticksPerSecond + 2, layout.titleOffset + 2, layout.composerOffset + 2,
    layout.remarksOffset + 2, layout.channelMap + 16,
    if version = 0x0100 then layout.instrumentCount + 1 else layout.instrumentCount + 2,
    if version = 0x0100 then 6 else layout.tempo + 2].foldl max 6

/-- The fields of a header that has passed its checks (40_instrument_bank R137). -/
def headerFields (layout : HeaderLayout) (file : List Byte) (version : Nat) : Header where
  version          := version
  instrumentOffset := fileU16 file layout.instrumentOffset
  musicOffset      := fileU16 file layout.musicOffset
  ticksPerQuarter  := fileU16 file layout.ticksPerQuarter
  ticksPerSecond   := fileU16 file layout.ticksPerSecond
  titleOffset      := fileU16 file layout.titleOffset
  composerOffset   := fileU16 file layout.composerOffset
  remarksOffset    := fileU16 file layout.remarksOffset
  channelMap       := (file.drop layout.channelMap).take 16
  instrumentCount  :=
    if version = 0x0100 then (fileByte file layout.instrumentCount).toNat
    else fileU16 file layout.instrumentCount
  tempo            := if version = 0x0100 then none else some (fileU16 file layout.tempo)

/-- The header check: magic, version, header length, in that order (40_instrument_bank R136,
60_exceptions R308); an input that ends before the magic or the version is complete is
TruncatedInput (log entry 11). -/
def readHeader (layout : HeaderLayout) (file : List Byte) : Loaded Header :=
  if file.length < 4 then .error .truncatedInput
  else if file.take 4 ≠ magicBytes then .error .badMagic
  else if file.length < 6 then .error .truncatedInput
  else if fileU16 file 4 ≠ 0x0100 ∧ fileU16 file 4 ≠ 0x0101 then .error .unsupportedVersion
  else if file.length < headerLength layout (fileU16 file 4) then .error .truncatedInput
  else .ok (headerFields layout file (fileU16 file 4))

/-! ### The configuration -/

/-- The loader: the header check, the bank, TPS and M = the bytes from the music offset to the end of
the input; the other parameters as the host gives them in `params` (40_instrument_bank R138). -/
def loadFile (records : RecordLayout) (layout : HeaderLayout) (patches : Fin 16 → Instrument)
    (params : Config) (file : List Byte) : Loaded Config :=
  match readHeader layout file with
  | .error e => .error e
  | .ok h =>
    match loadBank records patches file h.instrumentOffset h.instrumentCount with
    | .error e => .error e
    | .ok bank =>
      .ok { params with
        music := musicOfBytes (file.drop h.musicOffset)
        tps := BitVec.ofNat 16 h.ticksPerSecond
        bank := bank }

/-- The boot order: header, bank, configuration, Reset (70_reset_and_hazards R336). -/
def boot (records : RecordLayout) (layout : HeaderLayout) (patches : Fin 16 → Instrument)
    (params : Config) (file : List Byte) : Loaded State :=
  match loadFile records layout patches params file with
  | .error e => .error e
  | .ok cfg => resetEngine cfg

end Sys2Proof.Machine
end

