-- ==== Sys2Proof/Safety.lean ====
section
/-! DEFINITION. What claims call a legal state and a safe run of the engine (spec 10_state R24 to R36,
20_memory R76, 60_exceptions R305). -/

namespace Sys2Proof.Machine

/-- A register the engine can write (20_memory R76): the 18 operator offsets above 0x20, 0x40, 0x60, 0x80
and 0xE0, the nine voices above 0xA0, 0xB0 and 0xC0, and 0xBD. -/
def writable (r : Byte) : Bool :=
  allVoices.any (fun v =>
    [opOffset v, carOffset v].any (fun o =>
      [reg20 o, reg40 o, reg60 o, reg80 o, regE0 o].contains r) ||
    [regA0 v, regB0 v, regC0 v].contains r) || r == regBD

/-- A legal state: what the rules say holds after reset and after every tick. -/
structure LegalState (s : State) : Prop where
  /-- The mirror is in canonical form. -/
  mirrorCanonical : Memory.wf s.mirror
  /-- MIRROR keeps 0x00 at every register the engine does not write (20_memory R76). -/
  mirrorFootprint : ∀ r : Byte, writable r = false → s.mirrorAt r = 0
  /-- RHY is MIRROR[0xBD][5] (10_state R36 c). -/
  rhythmMirrored : s.rhy = (s.mirrorAt regBD).getLsbD 5
  /-- Every stamp is at most NC (10_state R36 b). -/
  stampsBounded : ∀ i, (s.voice i).noteStart ≤ s.nc
  /-- No two voices hold the same non-zero stamp (10_state R36 b). -/
  stampsDistinct : ∀ i j, i ≠ j → (s.voice i).noteStart ≠ 0 →
    (s.voice i).noteStart ≠ (s.voice j).noteStart
  /-- NC fits NC_WIDTH bits (10_state R28). -/
  counterFits : s.nc < 2 ^ s.cfg.ncWidth
  /-- TR is −127..127 (10_state R27). -/
  transposeRange : -127 ≤ s.tr ∧ s.tr ≤ 127
  /-- 0 ≤ PTR ≤ L (10_state R24). -/
  pointerRange : s.ptr ≤ s.streamLength
  /-- RS is its reset value or a status byte (10_state R25). -/
  statusStored : s.rs = 0 ∨ s.rs.msb = true

/-- What register `r` holds on a chip that starts at 0x00 and receives the items in order: the last
value written to it (10_state R34, 70_reset_and_hazards R345). -/
def lastWritten (r : Byte) (items : List OutItem) : Byte :=
  items.foldl (fun x i =>
    match i with
    | .write a v => if a = r then v else x
    | .delay _ => x) 0x00

/-- MIRROR holds the last-written value of every register (10_state R34). -/
def mirrorReplaysOutput (s : State) : Prop := ∀ r : Byte, s.mirrorAt r = lastWritten r s.out

/-- Whether a note message on channel `c` takes the percussion path (45_voice_allocator R240). -/
def isPercussion (s : State) (c : Chan) : Prop := s.rhy = true ∧ 11 ≤ c.val

/-- Whether voice `i` is one of the melodic voices 0..N-1 (45_voice_allocator R240). -/
def isMelodicVoice (s : State) (i : VoiceId) : Prop := i.val < melodicCount s.rhy

/-- Whether voice `i` sounds note `n` of channel `c` (45_voice_allocator R245). -/
def isSounding (s : State) (c : Chan) (n : U7) (i : VoiceId) : Prop :=
  (s.voice i).noteStart ≠ 0 ∧ (s.voice i).channel = some c ∧ (s.voice i).note = some n

/-- The engine has not met a case the spec gives no meaning (60_exceptions R305). -/
def notFaulted (s : State) : Prop := ∀ c, s.run ≠ .faulted c

/-- The register writes of a note-on that gets its stamp, as output items. -/
def writeItems (ws : List (Byte × Byte)) : List OutItem := ws.map fun w => .write w.1 w.2

/-- The F-number of a note-on of note `n` on channel `c`, from the note, the channel's pitch bend and the
transpose (46_frequency R285): `raw` is FNUM_FN's value, and `fn` is it reduced to ten bits (46_frequency
R284). -/
def isNoteFnum (s : State) (c : Chan) (n : U7) (raw fn : Nat) : Prop :=
  (s.cfg.fnumFn = .reference → raw = fnumReference n.toNat (s.channel c).bend.toNat s.tr) ∧
  (∀ entries other, s.cfg.fnumFn = .table entries other →
    raw = lookupFnum other n.toNat (s.channel c).bend.toNat s.tr entries) ∧
  (raw ≤ 1023 → fn = raw) ∧ (1023 < raw → fn = raw % 1024)

/-- The log entries of a melodic note-on: FreqOverflow (46_frequency R284), then PolyphonyOverflow
where no melodic voice is free (45_voice_allocator R243). -/
def melodicWarnings (s : State) (c : Chan) (n : U7) : List LogEntry :=
  (if 1023 < s.rawFnum c n then [.freqOverflow] else []) ++
  (if (melodicVoices s.rhy).any s.isFree then [] else [.polyphonyOverflow])

/-- The log entries of a percussion note-on: FreqOverflow only (46_frequency R284). -/
def percussionWarnings (s : State) (c : Chan) (n : U7) : List LogEntry :=
  if 1023 < s.rawFnum c n then [.freqOverflow] else []

/-- The binding writes of a melodic note-on: none where the chosen voice already holds the channel's
instrument, else the eleven of R246 (45_voice_allocator R244). -/
def melodicBinding (s : State) (c : Chan) : List (Byte × Byte) :=
  let k := (s.channel c).instrument
  let v := findVoice s k
  if (s.voice v).instrument = some k then [] else bindWrites v (s.bankAt k)

/-- The frequency writes of a note-on on voice `v` (45_voice_allocator R241, R251). -/
def noteFreqWrites (s : State) (c : Chan) (n : U7) (v : VoiceId) (key : Bool) : List (Byte × Byte) :=
  freqWrites s.cfg.blockPacking v (blockOf n.toNat) (reduceFnum (s.rawFnum c n)) key

/-- The writes of a percussion note-on in R251's order: binding, the bass drum's level in bits 5:0 of
0x53 beside its carrier's key-scale bits, the drum's bit of 0xBD cleared and set, the frequency
(45_voice_allocator R251, R252). -/
def percussionWrites (s : State) (d : Drum) (c : Chan) (n vel : U7) : List (Byte × Byte) :=
  let i := s.bankAt (s.channel c).instrument
  percBindWrites s.cfg.percSource d i ++
  (if d = .bass then [(0x53, (i.car.b40 &&& 0xC0) ||| BitVec.ofNat 8 (percLevel vel.toNat))] else []) ++
  [(0xBD, s.mirrorAt 0xBD &&& ~~~d.bit), (0xBD, s.mirrorAt 0xBD ||| d.bit)] ++
  noteFreqWrites s c n d.voice false

end Sys2Proof.Machine
end

