-- ==== Sys2Proof/Certificates/Slice0/Obligations.lean ====
section
/-! DEFINITION. The statements for the provers, from the numbered rules of spec/. -/

open Sys2Proof Sys2Proof.Machine

/-! ### Encoding -/

/-- R93, R97 to R99: decoding the bytes of a well-formed message gives its row back, whatever follows
it, and reads exactly its bytes. The row of every message but the generic CONTROLLER term is the
message itself; CONTROLLER's is the CTRL_* row its number selects (R98). -/
def Obligations.DecodeEncodeMessage : Prop :=
  ∀ (i : Instr) (rest : List Byte), i.wellFormed = true → (∀ d, i ≠ .deltaTime d) →
    decodeMessage (encode i ++ rest) = .instr i.row (encode i).length ∧
    ((∀ c num val, i ≠ .controller c num val) → i.row = i)

/-- R91: every delta time 0..0x0FFFFFFF is read back from its bytes. -/
def Obligations.DecodeEncodeDelta : Prop :=
  ∀ (d : Nat) (rest : List Byte), d ≤ 0x0FFFFFFF →
    decodeVlq (encodeVlq d ++ rest) = .value d (encodeVlq d).length

/-- R102, R96: what a message decodes to is well-formed, its own row, and encodes to exactly the bytes
read. -/
def Obligations.EncodeDecodedMessage : Prop :=
  ∀ (bytes : List Byte) (i : Instr) (n : Nat), decodeMessage bytes = .instr i n →
    i.wellFormed = true ∧ i.row = i ∧ n ≤ bytes.length ∧ encode i = bytes.take n

/-- R91, R152: a delta time is read from one to four bytes, ends at the first with bit 7 clear or after
the fourth, and its value is its 7-bit groups, most significant first; the stream ends inside it
exactly where fewer than four bytes remain, all with bit 7 set. -/
def Obligations.DeltaTimeReading : Prop :=
  ∀ bytes : List Byte,
    (∀ v n, decodeVlq bytes = .value v n →
      1 ≤ n ∧ n ≤ 4 ∧ n ≤ bytes.length ∧
      v = (bytes.take n).foldl (fun a x => a * 128 + (low7 x).toNat) 0 ∧
      v ≤ 0x0FFFFFFF ∧
      (∀ k b, k + 1 < n → bytes[k]? = some b → b.msb = true) ∧
      (∀ b, n < 4 → bytes[n - 1]? = some b → b.msb = false)) ∧
    (∀ n, decodeVlq bytes = .truncated n →
      n = bytes.length ∧ n < 4 ∧ ∀ b ∈ bytes, b.msb = true)

/-- Words written out from the encodings of opcode_table.json decode to their instructions, read as log
entry 13 lays a table word out (the model's reading: the first byte is the highest, and a word whose first
byte has bit 7 clear is RUNNING_STATUS). -/
def Obligations.TableWordsDecode : Prop :=
  decodeTableWord 24 0x803C40 = some (.noteOff 0 0x3C 0x40) ∧
  decodeTableWord 24 0x9B247F = some (.noteOn 11 0x24 0x7F) ∧
  decodeTableWord 24 0xB06703 = some (.ctrlRhythm 0 3) ∧
  decodeTableWord 24 0xB00764 = some (.ctrlOther 0 7 100) ∧
  decodeTableWord 16 0xC205 = some (.program 2 5) ∧
  decodeTableWord 24 0xE00060 = some (.pitchBend 0 0 0x60) ∧
  decodeTableWord 24 0xF20010 = some (.songPosition 0 0x10) ∧
  decodeTableWord 8 0xFC = some .stop ∧
  decodeTableWord 16 0xFF2F = some .metaEndOfTrack ∧
  decodeTableWord 16 0xFF51 = some (.metaOther 0x51) ∧
  decodeTableWord 8 0x3C = some (.runningStatus 0x3C)

/-- R158, R157: every status with bit 7 set has a rule, and no other has. -/
def Obligations.StatusHasARule : Prop :=
  ∀ (st : Byte) (rest : List Byte), decodeBody st rest = .noStatus ↔ st.msb = false

/-! ### The tick -/

/-- R150: a running engine reads a delta time, runs DELTA_TIME, and then, if it still runs, runs the
decoded message: with a status byte `b`, stored in RS; with a first byte whose bit 7 is clear, by way of
RUNNING_STATUS under the stored status. PTR is moved past the bytes read. -/
def Obligations.StepRunsDecodedEvent : Prop :=
  ∀ (s s1 : State) (d n : Nat) (b : Byte) (rest : List Byte) (i : Instr) (k : Nat),
    s.run = .running → s.cfg.tps ≠ 0 → decodeVlq s.remaining = .value d n →
    exec (.deltaTime d) (s.advance n) = .next s1 → s1.run = .running →
    s1.remaining = b :: rest →
      (b.msb = true → decodeBody b rest = .instr i k →
        step s = exec i (((s1.advance 1).setRs b).advance k)) ∧
      (b.msb = false → s1.rs.msb = true → decodeBody s1.rs (b :: rest) = .instr i k →
        exec (.runningStatus (low7 b)) (s1.advance 1) = .next s1 ∧ step s = exec i (s1.advance k))

/-- R61, R62, R155, R157, R161: where an event does not decode, the tick ends as its first bad byte
says, with PTR after the bytes read. -/
def Obligations.StepEndsBadEvents : Prop :=
  ∀ s : State, s.run = .running → s.cfg.tps ≠ 0 →
    (∀ n, decodeVlq s.remaining = .truncated n →
      step s = .next ((s.advance n).terminate .corruptStream)) ∧
    (∀ d n s1, decodeVlq s.remaining = .value d n →
      exec (.deltaTime d) (s.advance n) = .next s1 →
        (s1.run ≠ .running → step s = .next s1) ∧
        (s1.run = .running →
          (s1.remaining = [] → step s = .next (s1.terminate .corruptStream)) ∧
          (∀ b rest, s1.remaining = b :: rest → b.msb = true →
            (∀ k, decodeBody b rest = .truncated k →
              step s = .next ((((s1.advance 1).setRs b).advance k).terminate .corruptStream)) ∧
            (∀ k, decodeBody b rest = .badDataByte k →
              step s = .next ((((s1.advance 1).setRs b).advance k).raiseFault .badDataByte))) ∧
          (∀ b rest, s1.remaining = b :: rest → b.msb = false →
            (s1.rs.msb = false → step s = .next (s1.terminate .corruptStream)) ∧
            (s1.rs.msb = true → ∀ k, decodeBody s1.rs (b :: rest) = .truncated k →
              step s = .next ((s1.advance k).terminate .corruptStream)) ∧
            (s1.rs.msb = true → ∀ k, decodeBody s1.rs (b :: rest) = .badDataByte k →
              step s = .next ((s1.advance k).raiseFault .badDataByte)))))

/-- R151: a tick of an engine that is not Running changes nothing, emits nothing and returns the status
it returned before: End(reason) or FaultStop(code). -/
def Obligations.StoppedEngineDoesNothing : Prop :=
  ∀ s : State, s.run ≠ .running → step s = .next s ∧
    (∀ r, s.run = .ended r → s.tickResult = .ended r) ∧
    (∀ c, s.run = .faulted c → s.tickResult = .faultStop c)

/-- R102: every tick of an engine whose TPS is not 0 answers a next state, whatever its stream. -/
def Obligations.StepAnswersNext : Prop :=
  ∀ s : State, s.cfg.tps ≠ 0 → ∃ t, step s = .next t

/-- The model's choice (log entry 9) for R331's "no tick may run": a running engine with TPS = 0 faults,
and Reset refuses that configuration. -/
def Obligations.ZeroTpsRefused : Prop :=
  (∀ s : State, s.run = .running → s.cfg.tps = 0 → step s = .fault .configError) ∧
  (∀ cfg : Config, cfg.tps = 0 → resetEngine cfg = .error .configError)

/-! ### Invariants -/

/-- R36, R39: State.reset is the Reset of the default configuration and is legal; its configuration's
TPS, stream and bank are the model's choices (log entries 2, 3 and 5), on which this does not rest. -/
def Obligations.ResetIsLegal : Prop :=
  resetEngine Config.default = .ok State.reset ∧
  LegalState State.reset ∧ mirrorReplaysOutput State.reset

/-- R36, R332, R333: Reset of any configuration it accepts, presets included, leaves a legal state whose
mirror shows the writes made. -/
def Obligations.EveryResetIsLegal : Prop :=
  ∀ (cfg : Config) (s : State), resetEngine cfg = .ok s → LegalState s ∧ mirrorReplaysOutput s

/-- R36, R76, R24, R25, R27, R28: every tick keeps a state legal. -/
def Obligations.StepKeepsLegalState : Prop :=
  ∀ s t : State, LegalState s → step s = .next t → LegalState t

/-- R34, R66: MIRROR always holds the last value written to every register: the mirror and the output
port are updated together, and the mirror stays canonical. -/
def Obligations.StepKeepsMirrorReplay : Prop :=
  ∀ s t : State, Memory.wf s.mirror → mirrorReplaysOutput s → step s = .next t →
    Memory.wf t.mirror ∧ mirrorReplaysOutput t

/-- R63, R135: no tick changes the music stream, the bank or any other part of the configuration. -/
def Obligations.StepKeepsConfiguration : Prop :=
  ∀ s t : State, step s = .next t → t.cfg = s.cfg

/-- R162: PTR strictly increases from tick to tick while the engine runs, and never passes L. -/
def Obligations.PointerGrowsEachTick : Prop :=
  ∀ s t : State, s.run = .running → step s = .next t → t.run = .running →
    s.ptr < t.ptr ∧ t.ptr ≤ s.streamLength

/-- R162, R340: from any running state, the host's tick loop ends after at most L − PTR + 1 calls. -/
def Obligations.HostRunEnds : Prop :=
  ∀ s : State, s.cfg.tps ≠ 0 →
    ∃ t, hostRun (s.streamLength - s.ptr + 1) s = .next t ∧ t.run ≠ .running

/-- R14, R70: a tick only appends to the output: at most one Delay, then register writes; and only
appends to the log (R310). -/
def Obligations.TickEmitsOneDelayThenWrites : Prop :=
  ∀ s t : State, step s = .next t →
    (∃ ds ws, t.out = s.out ++ ds ++ ws ∧ ds.length ≤ 1 ∧ (∀ x ∈ ds, x.isWrite = false) ∧
      (∀ x ∈ ws, x.isWrite = true)) ∧
    ∃ ls, t.log = s.log ++ ls

/-- R160, R301, R305: a tick that ends in CorruptStream or BadDataByte has changed nothing but RUN, PTR,
RS, the log and, for a non-zero delta, its Delay. -/
def Obligations.CutShortTickHasNoEffect : Prop :=
  ∀ s t : State, s.run = .running → step s = .next t →
    (t.run = .ended .corruptStream ∨ t.run = .faulted .badDataByte) →
    t = { s with run := t.run, ptr := t.ptr, rs := t.rs, out := t.out, log := t.log } ∧
    (t.out = s.out ∨ ∃ ms, t.out = s.out ++ [.delay ms])

/-- R26 to R29, R32: which instructions write which state. RHY is written by controller 0x67 only; TR by
0x68 and 0x69; CH by PROGRAM and PITCH_BEND; NC and V by the note messages; the configuration by none.
That `exec` leaves RS alone, and PTR but for RUNNING_STATUS, is the model's choice (log entry 16): the
tick around it stores the status byte and moves PTR past the bytes read (StepRunsDecodedEvent). -/
def Obligations.OnlyTheNamedInstructionsWrite : Prop :=
  ∀ (i : Instr) (s t : State), exec i s = .next t →
    t.rs = s.rs ∧ t.cfg = s.cfg ∧
    ((∀ c val, i ≠ .ctrlRhythm c val) → (∀ c val, i ≠ .controller c 0x67 val) → t.rhy = s.rhy) ∧
    ((∀ c val, i ≠ .ctrlTransposeUp c val) → (∀ c val, i ≠ .ctrlTransposeDown c val) →
      (∀ c val, i ≠ .controller c 0x68 val) → (∀ c val, i ≠ .controller c 0x69 val) → t.tr = s.tr) ∧
    ((∀ c p, i ≠ .program c p) → (∀ c l m, i ≠ .pitchBend c l m) → t.ch = s.ch) ∧
    ((∀ c n v, i ≠ .noteOn c n v) → t.nc = s.nc) ∧
    ((∀ c n v, i ≠ .noteOn c n v) → (∀ c n v, i ≠ .noteOff c n v) → t.v = s.v) ∧
    ((∀ x, i ≠ .runningStatus x) → t.ptr = s.ptr)

/-! ### The prefixes -/

/-- R153, R154: delta 0 emits nothing; every other delta emits one Delay of (delta * 1000) div TPS
milliseconds, and above 0xFFFF the overflow policy applies. Nothing else changes. -/
def Obligations.DeltaTimeEmitsItsDelay : Prop :=
  ∀ (d : Nat) (s : State),
    (d = 0 → exec (.deltaTime d) s = .next s) ∧
    (d ≠ 0 → s.cfg.tps ≠ 0 → d * 1000 / s.cfg.tps.toNat ≤ 0xFFFF →
      ∃ ms : BitVec 16, ms.toNat = d * 1000 / s.cfg.tps.toNat ∧
        exec (.deltaTime d) s = .next { s with out := s.out ++ [.delay ms] }) ∧
    (d ≠ 0 → s.cfg.tps ≠ 0 → 0xFFFF < d * 1000 / s.cfg.tps.toNat →
      (s.cfg.delayPolicy = .fault →
        exec (.deltaTime d) s = .next { s with run := .faulted .delayOverflow }) ∧
      (s.cfg.delayPolicy = .truncate16 →
        ∃ ms : BitVec 16, ms.toNat = d * 1000 / s.cfg.tps.toNat % 65536 ∧
          exec (.deltaTime d) s = .next { s with out := s.out ++ [.delay ms] }) ∧
      (s.cfg.delayPolicy = .saturate →
        exec (.deltaTime d) s = .next { s with out := s.out ++ [.delay 0xFFFF] }))

/-- R156, R157: RUNNING_STATUS gives the byte back and changes nothing else; with a stored status whose
bit 7 is clear it ends the sequence, which is logged (R304). -/
def Obligations.RunningStatusGivesTheByteBack : Prop :=
  ∀ (x : U7) (s : State),
    (s.rs.msb = true → exec (.runningStatus x) s = .next { s with ptr := s.ptr - 1 }) ∧
    (s.rs.msb = false → exec (.runningStatus x) s = .next { s with
      ptr := s.ptr - 1, run := .ended .corruptStream, log := s.log ++ [.corruptStream] })

/-! ### Channel messages -/

/-- R186: PROGRAM sets the channel's instrument; nothing else changes. -/
def Obligations.ProgramSetsTheInstrument : Prop :=
  ∀ (c : Chan) (p : U7) (s : State), ∃ t, exec (.program c p) s = .next t ∧
    t.channel c = { s.channel c with instrument := p } ∧
    (∀ c', c' ≠ c → t.channel c' = s.channel c') ∧ t = { s with ch := t.ch }

/-- R188, R94: PITCH_BEND sets the channel's bend to lsb + 128 * msb; nothing else changes. -/
def Obligations.PitchBendSetsTheBend : Prop :=
  ∀ (c : Chan) (lsb msb : U7) (s : State), ∃ t, exec (.pitchBend c lsb msb) s = .next t ∧
    (t.channel c).bend.toNat = lsb.toNat + 128 * msb.toNat ∧
    (t.channel c).instrument = (s.channel c).instrument ∧
    (∀ c', c' ≠ c → t.channel c' = s.channel c') ∧ t = { s with ch := t.ch }

/-- R183, R187: the pressure messages are logged and change nothing else. -/
def Obligations.PressureIsOnlyLogged : Prop :=
  ∀ (c : Chan) (x y : U7) (s : State),
    exec (.polyPressure c x y) s = .next { s with log := s.log ++ [.pressureIgnored] } ∧
    exec (.chanPressure c x) s = .next { s with log := s.log ++ [.pressureIgnored] }

/-- R101, R182: NOTE_ON with velocity 0 is the NOTE_OFF of the same channel and note, whatever the
latter's velocity. -/
def Obligations.VelocityZeroIsNoteOff : Prop :=
  ∀ (c : Chan) (n vel : U7) (s : State), exec (.noteOn c n 0) s = exec (.noteOff c n vel) s

/-! ### Controllers -/

/-- R200: CONTROLLER has the effect of the CTRL_* row of its number, each number having one case; on any
channel (R185); it always completes, and leaves CH, V and RUN alone (R201). -/
def Obligations.ControllerDispatches : Prop :=
  ∀ (c c' : Chan) (num val : U7) (s : State), ∃ t, exec (.controller c num val) s = .next t ∧
    t.ch = s.ch ∧ t.v = s.v ∧ t.run = s.run ∧
    (num = 0x63 → exec (.ctrlAmvib c' val) s = .next t) ∧
    (num = 0x66 → exec (.ctrlMarker c' val) s = .next t) ∧
    (num = 0x67 → exec (.ctrlRhythm c' val) s = .next t) ∧
    (num = 0x68 → exec (.ctrlTransposeUp c' val) s = .next t) ∧
    (num = 0x69 → exec (.ctrlTransposeDown c' val) s = .next t) ∧
    (num ∉ namedControllers → exec (.ctrlOther c' num val) s = .next t)

/-- R202: CTRL_AMVIB loads bits 7:6 of 0xBD from bits 1:0 of the value and keeps bits 5:0, in one write
that is always made. -/
def Obligations.DepthBitsFollowTheValue : Prop :=
  ∀ (c : Chan) (val : U7) (s : State), Memory.wf s.mirror →
    ∃ t, exec (.ctrlAmvib c val) s = .next t ∧
      (t.mirrorAt 0xBD).getLsbD 7 = val.getLsbD 1 ∧
      (t.mirrorAt 0xBD).getLsbD 6 = val.getLsbD 0 ∧
      (∀ k, k < 6 → (t.mirrorAt 0xBD).getLsbD k = (s.mirrorAt 0xBD).getLsbD k) ∧
      t.out = s.out ++ [.write 0xBD (t.mirrorAt 0xBD)] ∧
      (∀ r, r ≠ 0xBD → t.mirrorAt r = s.mirrorAt r) ∧
      t = { s with mirror := t.mirror, out := t.out }

/-- R204: CTRL_RHYTHM sets RHY and bit 5 of 0xBD where the value is not 0 and clears both where it is,
keeps the other bits, makes one write always, and frees or rebinds no voice. -/
def Obligations.RhythmBitFollowsTheValue : Prop :=
  ∀ (c : Chan) (val : U7) (s : State), Memory.wf s.mirror →
    ∃ t, exec (.ctrlRhythm c val) s = .next t ∧
      t.rhy = decide (val ≠ 0) ∧
      (t.mirrorAt 0xBD).getLsbD 5 = decide (val ≠ 0) ∧
      (∀ k, k ≠ 5 → (t.mirrorAt 0xBD).getLsbD k = (s.mirrorAt 0xBD).getLsbD k) ∧
      t.out = s.out ++ [.write 0xBD (t.mirrorAt 0xBD)] ∧
      (∀ r, r ≠ 0xBD → t.mirrorAt r = s.mirrorAt r) ∧
      t = { s with rhy := t.rhy, mirror := t.mirror, out := t.out }

/-- R205, R206: the transpose controllers overwrite TR with the value or its negation; nothing else
changes. -/
def Obligations.TransposeOverwrites : Prop :=
  ∀ (c : Chan) (val : U7) (s : State),
    exec (.ctrlTransposeUp c val) s = .next { s with tr := (val.toNat : Int) } ∧
    exec (.ctrlTransposeDown c val) s = .next { s with tr := -(val.toNat : Int) }

/-- R203, R207: the marker and every other controller are logged and change nothing else. -/
def Obligations.IgnoredControllersOnlyLog : Prop :=
  ∀ (c : Chan) (num val : U7) (s : State),
    exec (.ctrlMarker c val) s = .next { s with log := s.log ++ [.markerIgnored] } ∧
    exec (.ctrlOther c num val) s = .next { s with log := s.log ++ [.unknownController] }

/-! ### System messages -/

/-- R222, R224, R226, R227, R230: the one-byte messages 0xF6, 0xF8, 0xFA, 0xFB and 0xFE read nothing after
their status and change nothing; START in particular resets nothing. -/
def Obligations.SystemNoOpsDoNothing : Prop :=
  ∀ (rest : List Byte) (s : State),
    (decodeBody 0xF6 rest = .instr .tuneRequest 0 ∧ exec .tuneRequest s = .next s) ∧
    (decodeBody 0xF8 rest = .instr .timingClock 0 ∧ exec .timingClock s = .next s) ∧
    (decodeBody 0xFA rest = .instr .start 0 ∧ exec .start s = .next s) ∧
    (decodeBody 0xFB rest = .instr .continuePlay 0 ∧ exec .continuePlay s = .next s) ∧
    (decodeBody 0xFE rest = .instr .activeSensing 0 ∧ exec .activeSensing s = .next s)

/-- R217 to R219, R223: the messages whose payload is skipped, and END_SYSEX as a status byte, change
nothing (their bytes are read by the tick). -/
def Obligations.SkippedPayloadsDoNothing : Prop :=
  ∀ (p q : Byte) (s : State),
    exec (.mtcQuarterFrame p) s = .next s ∧ exec (.songPosition p q) s = .next s ∧
    exec (.songSelect p) s = .next s ∧ exec .endSysex s = .next s

/-- R216, R220, R221, R225, R229, R233: these messages are logged and change nothing else; sysex echoes
the bytes read. -/
def Obligations.SystemMessagesOnlyLog : Prop :=
  ∀ (payload : List U7) (q : U7) (t : Byte) (s : State),
    (∃ bytes, bytes = (encode (.sysex payload q)).tail ∧
      exec (.sysex payload q) s = .next { s with log := s.log ++ [.sysexData bytes] }) ∧
    exec .sysUndefinedF4 s = .next { s with log := s.log ++ [.unknownSystem] } ∧
    exec .sysUndefinedF5 s = .next { s with log := s.log ++ [.unknownSystem] } ∧
    exec .sysUndefinedF9 s = .next { s with log := s.log ++ [.unknownSystem] } ∧
    exec .sysUndefinedFD s = .next { s with log := s.log ++ [.unknownSystem] } ∧
    exec (.metaOther t) s = .next { s with log := s.log ++ [.metaIgnored] }

/-- R302, R303: the status byte 0xFC raises the termination Stop and the meta event FF 2F EndOfTrack. Each
sets RUN, changes nothing else and keys nothing off (R301, R352); later ticks return the reason and do
nothing. -/
def Obligations.StopAndEndOfTrackEnd : Prop :=
  ∀ s : State,
    (decodeMessage [0xFC] = .instr .stop 1 ∧
      ∃ t, exec .stop s = .next t ∧ t = { s with run := .ended .stop } ∧
        t.tickResult = .ended .stop ∧ step t = .next t) ∧
    (decodeMessage [0xFF, 0x2F] = .instr .metaEndOfTrack 2 ∧
      ∃ t, exec .metaEndOfTrack s = .next t ∧ t = { s with run := .ended .endOfTrack } ∧
        t.tickResult = .ended .endOfTrack ∧ step t = .next t)

/-! ### Ports -/

/-- R66, R67: WriteReg(r, v) sets MIRROR[r] to v and emits Write(r, v) as one action, also where the mirror
already holds v; EmitDelay(ms) emits Delay(ms); neither changes anything else. -/
def Obligations.PortsEmitAndMirror : Prop :=
  ∀ (s : State) (r v : Byte) (ms : BitVec 16), Memory.wf s.mirror →
    ((s.writeReg r v).mirrorAt r = v ∧
      (∀ q, q ≠ r → (s.writeReg r v).mirrorAt q = s.mirrorAt q) ∧
      (s.writeReg r v).out = s.out ++ [.write r v] ∧ Memory.wf (s.writeReg r v).mirror ∧
      s.writeReg r v = { s with mirror := (s.writeReg r v).mirror, out := (s.writeReg r v).out }) ∧
    s.emitDelay ms = { s with out := s.out ++ [.delay ms] }

/-! ### The allocator -/

/-- R242, R243: FindVoice gives the highest free melodic voice that holds the wanted instrument; if
there is none, the lowest free melodic voice; if none is free, the one with the smallest stamp, the
lowest among equals. -/
def Obligations.FindVoiceChoosesTheSpecifiedVoice : Prop :=
  ∀ (s : State) (k : U7),
    isMelodicVoice s (findVoice s k) ∧
    (∀ i, isMelodicVoice s i → s.isFree i = true → (s.voice i).instrument = some k →
      (∀ j, isMelodicVoice s j → i < j → s.isFree j = true → (s.voice j).instrument ≠ some k) →
      findVoice s k = i) ∧
    (∀ i, isMelodicVoice s i → s.isFree i = true →
      (∀ j, isMelodicVoice s j → s.isFree j = true → (s.voice j).instrument ≠ some k) →
      (∀ j, j < i → s.isFree j = false) → findVoice s k = i) ∧
    (∀ i, isMelodicVoice s i → (∀ j, isMelodicVoice s j → s.isFree j = false) →
      (∀ j, isMelodicVoice s j → (s.voice i).noteStart ≤ (s.voice j).noteStart) →
      (∀ j, j < i → (s.voice i).noteStart ≠ (s.voice j).noteStart) → findVoice s k = i)

/-- R241, R244, R246, R256, R284, R285: a melodic note-on that gets a stamp binds the chosen voice where it
holds another instrument, stamps it with the new counter, writes its two frequency registers with the
key-on bit, from the note, the channel's bend and the transpose, and changes nothing else. MIRROR holds the
last value written to each register written. FreqOverflow is logged where FNUM_FN exceeds ten bits, then
PolyphonyOverflow where no melodic voice is free. -/
def Obligations.MelodicNoteOnResult : Prop :=
  ∀ (c : Chan) (n vel : U7) (s : State), vel ≠ 0 → ¬ isPercussion s c →
    s.nc ≠ 2 ^ s.cfg.ncWidth - 1 → Memory.wf s.mirror →
    ∃ t k v ws bind raw fn overflow steal, exec (.noteOn c n vel) s = .next t ∧
      k = (s.channel c).instrument ∧ v = findVoice s k ∧
      raw = s.rawFnum c n ∧ fn = reduceFnum raw ∧ isNoteFnum s c n raw fn ∧
      bind = melodicBinding s c ∧
      ((s.voice v).instrument = some k → bind = []) ∧
      ((s.voice v).instrument ≠ some k → bind = bindWrites v (s.bankAt k)) ∧
      ws = bind ++
        [(BitVec.ofNat 8 (0xA0 + v.val), BitVec.ofNat 8 (fn % 256)),
          (BitVec.ofNat 8 (0xB0 + v.val),
            packKeyBlock s.cfg.blockPacking (blockOf n.toNat) fn true)] ∧
      (ws.length = 2 ∨ ws.length = 13) ∧
      t.voice v = ⟨s.nc + 1, some n, some c, some k⟩ ∧
      (∀ i, i ≠ v → t.voice i = s.voice i) ∧
      t.nc = s.nc + 1 ∧
      t.out = s.out ++ writeItems ws ∧
      t.log = s.log ++ (overflow ++ steal) ∧ overflow ++ steal = melodicWarnings s c n ∧
      (raw ≤ 1023 → overflow = []) ∧ (1023 < raw → overflow = [.freqOverflow]) ∧
      ((∃ i, isMelodicVoice s i ∧ (s.voice i).noteStart = 0) → steal = []) ∧
      ((∀ i, isMelodicVoice s i → (s.voice i).noteStart ≠ 0) → steal = [.polyphonyOverflow]) ∧
      (∀ r, (∃ w ∈ ws, w.1 = r) → t.mirrorAt r = lastWritten r (writeItems ws)) ∧
      (∀ r, (∀ w ∈ ws, w.1 ≠ r) → t.mirrorAt r = s.mirrorAt r) ∧
      t = { s with nc := t.nc, v := t.v, mirror := t.mirror, out := t.out, log := t.log }

/-- R245: a melodic note-off frees the lowest melodic voice that sounds the note and clears only the
key-on bit of its 0xB0 register; if none sounds it, only the log changes. -/
def Obligations.MelodicNoteOffResult : Prop :=
  ∀ (c : Chan) (n vel : U7) (s : State), ¬ isPercussion s c → Memory.wf s.mirror →
    (∀ i, isMelodicVoice s i → isSounding s c n i → (∀ j, j < i → ¬ isSounding s c n j) →
      ∃ t, exec (.noteOff c n vel) s = .next t ∧
        t.voice i = { s.voice i with noteStart := 0 } ∧
        (∀ j, j ≠ i → t.voice j = s.voice j) ∧
        t.out = s.out ++ [.write (regB0 i) (t.mirrorAt (regB0 i))] ∧
        (t.mirrorAt (regB0 i)).getLsbD 5 = false ∧
        (∀ k, k ≠ 5 → (t.mirrorAt (regB0 i)).getLsbD k = (s.mirrorAt (regB0 i)).getLsbD k) ∧
        (∀ r, r ≠ regB0 i → t.mirrorAt r = s.mirrorAt r) ∧
        t = { s with v := t.v, mirror := t.mirror, out := t.out }) ∧
    ((∀ i, isMelodicVoice s i → ¬ isSounding s c n i) →
      exec (.noteOff c n vel) s = .next { s with log := s.log ++ [.noteOffUnmatched] })

/-- R250 to R253, R257, R259, R284, R285: a percussion note-on that gets a stamp always rebinds the drum's operators
(the bass drum's two and its connection; else one, from the record PERC_OPERATOR_SOURCE selects), sets the
bass drum's level, clears and sets the drum's bit of 0xBD, writes the voice's frequency with key-on 0,
from the note, the channel's bend and the transpose, logs FreqOverflow where FNUM_FN exceeds ten bits,
stamps the fixed voice and leaves it with no whole instrument; nothing else changes. MIRROR holds the last
value written to each register written. -/
def Obligations.PercussionNoteOnResult : Prop :=
  ∀ (c : Chan) (n vel : U7) (s : State) (d : Drum), vel ≠ 0 → s.rhy = true →
    drumOfChannel c = some d → s.nc ≠ 2 ^ s.cfg.ncWidth - 1 → Memory.wf s.mirror →
    ∃ t ws i raw fn carrier bind level, exec (.noteOn c n vel) s = .next t ∧
      ws = percussionWrites s d c n vel ∧
      i = s.bankAt (s.channel c).instrument ∧
      raw = s.rawFnum c n ∧ fn = reduceFnum raw ∧ isNoteFnum s c n raw fn ∧
      (s.cfg.percSource = .sameRole → carrier = i.car) ∧
      (s.cfg.percSource = .modulator → carrier = i.mod) ∧
      level = (i.car.b40 &&& 0xC0) ||| BitVec.ofNat 8 (percLevel vel.toNat) ∧
      (d = .bass → bind =
        [(0x30, i.mod.b20), (0x50, i.mod.b40), (0x70, i.mod.b60), (0x90, i.mod.b80), (0xF0, i.mod.bE0),
          (0x33, i.car.b20), (0x53, i.car.b40), (0x73, i.car.b60), (0x93, i.car.b80), (0xF3, i.car.bE0),
          (0xC6, i.conn), (0x53, level)]) ∧
      (d = .snare → bind = [(0x34, carrier.b20), (0x54, carrier.b40), (0x74, carrier.b60),
        (0x94, carrier.b80), (0xF4, carrier.bE0)]) ∧
      (d = .tom → bind =
        [(0x32, i.mod.b20), (0x52, i.mod.b40), (0x72, i.mod.b60), (0x92, i.mod.b80), (0xF2, i.mod.bE0)]) ∧
      (d = .cymbal → bind = [(0x35, carrier.b20), (0x55, carrier.b40), (0x75, carrier.b60),
        (0x95, carrier.b80), (0xF5, carrier.bE0)]) ∧
      (d = .hihat → bind =
        [(0x31, i.mod.b20), (0x51, i.mod.b40), (0x71, i.mod.b60), (0x91, i.mod.b80), (0xF1, i.mod.bE0)]) ∧
      ws = bind ++
        [(0xBD, s.mirrorAt 0xBD &&& ~~~d.bit), (0xBD, s.mirrorAt 0xBD ||| d.bit),
          (BitVec.ofNat 8 (0xA0 + d.voice.val), BitVec.ofNat 8 (fn % 256)),
          (BitVec.ofNat 8 (0xB0 + d.voice.val),
            packKeyBlock s.cfg.blockPacking (blockOf n.toNat) fn false)] ∧
      ws.length = (if d = .bass then 16 else 9) ∧
      t.voice d.voice = ⟨s.nc + 1, some n, some c, none⟩ ∧
      (∀ j, j ≠ d.voice → t.voice j = s.voice j) ∧
      t.nc = s.nc + 1 ∧
      t.out = s.out ++ writeItems ws ∧
      t.log = s.log ++ percussionWarnings s c n ∧
      (raw ≤ 1023 → t.log = s.log) ∧ (1023 < raw → t.log = s.log ++ [.freqOverflow]) ∧
      t.mirrorAt 0xBD = s.mirrorAt 0xBD ||| d.bit ∧
      (∀ r, (∃ w ∈ ws, w.1 = r) → t.mirrorAt r = lastWritten r (writeItems ws)) ∧
      (∀ r, (∀ w ∈ ws, w.1 ≠ r) → t.mirrorAt r = s.mirrorAt r) ∧
      t = { s with nc := t.nc, v := t.v, mirror := t.mirror, out := t.out, log := t.log }

/-- R254: a percussion note-off whose note is the one recorded on the drum's voice clears the drum's bit
of 0xBD, keeps the others and frees the voice, whoever started it; any other is only logged. -/
def Obligations.PercussionNoteOffResult : Prop :=
  ∀ (c : Chan) (n vel : U7) (s : State) (d : Drum), s.rhy = true → drumOfChannel c = some d →
    Memory.wf s.mirror →
    ((s.voice d.voice).note = some n →
      ∃ t, exec (.noteOff c n vel) s = .next t ∧
        t.voice d.voice = { s.voice d.voice with noteStart := 0 } ∧
        (∀ j, j ≠ d.voice → t.voice j = s.voice j) ∧
        t.mirrorAt 0xBD = s.mirrorAt 0xBD &&& ~~~d.bit ∧
        t.out = s.out ++ [.write 0xBD (t.mirrorAt 0xBD)] ∧
        (∀ r, r ≠ 0xBD → t.mirrorAt r = s.mirrorAt r) ∧
        t = { s with v := t.v, mirror := t.mirror, out := t.out }) ∧
    ((s.voice d.voice).note ≠ some n →
      exec (.noteOff c n vel) s = .next { s with log := s.log ++ [.percNoteOffStale] })

/-- R250: channels 11 to 15 are the bass drum, snare, tom, cymbal and hihat on voices 6, 7, 8, 8, 7, with
bit 15 − c of 0xBD; no other channel is a drum. -/
def Obligations.DrumTable : Prop :=
  (∀ c : Chan, (drumOfChannel c).isSome = decide (11 ≤ c.val)) ∧
  (∀ (c : Chan) (d : Drum), drumOfChannel c = some d →
    d.bit = BitVec.ofNat 8 (2 ^ (15 - c.val)) ∧
    (c.val = 11 → d.voice = 6) ∧ (c.val = 12 → d.voice = 7) ∧ (c.val = 13 → d.voice = 8) ∧
    (c.val = 14 → d.voice = 8) ∧ (c.val = 15 → d.voice = 7))

/-- R255, R306: a note-on at the greatest note-start counter faults, keeping all it has done before the
stamp: the warnings, the voice's new instrument field, and the writes it has made (the binding writes of a
melodic one, all the writes of a percussion one). No voice is stamped: note-start, note and channel of
every voice stay as they were, and so does everything else; later steps do nothing. -/
def Obligations.NoteCounterOverflowFaults : Prop :=
  ∀ (c : Chan) (n vel : U7) (s : State), vel ≠ 0 → s.nc = 2 ^ s.cfg.ncWidth - 1 →
    Memory.wf s.mirror →
    ∃ t ws, exec (.noteOn c n vel) s = .next t ∧ t.run = .faulted .noteCounterOverflow ∧
      (∀ i, (t.voice i).noteStart = (s.voice i).noteStart ∧ (t.voice i).note = (s.voice i).note ∧
        (t.voice i).channel = (s.voice i).channel) ∧
      t.out = s.out ++ writeItems ws ∧
      (∀ r, (∃ w ∈ ws, w.1 = r) → t.mirrorAt r = lastWritten r (writeItems ws)) ∧
      (∀ r, (∀ w ∈ ws, w.1 ≠ r) → t.mirrorAt r = s.mirrorAt r) ∧
      t = { s with run := t.run, v := t.v, mirror := t.mirror, out := t.out, log := t.log } ∧
      (¬ isPercussion s c → ∀ k v, k = (s.channel c).instrument → v = findVoice s k →
        ws = melodicBinding s c ∧ (t.voice v).instrument = some k ∧
        (∀ i, i ≠ v → t.voice i = s.voice i) ∧ t.log = s.log ++ melodicWarnings s c n) ∧
      (∀ d, s.rhy = true → drumOfChannel c = some d →
        ws = percussionWrites s d c n vel ∧ (t.voice d.voice).instrument = none ∧
        (∀ i, i ≠ d.voice → t.voice i = s.voice i) ∧ t.log = s.log ++ percussionWarnings s c n) ∧
      step t = .next t

/-- R258: a note-on followed at once by the note-off of the same channel and note. Melodic: the note-off
frees the voice the note-on took, unless a lower melodic voice sounded the pair already, in which case it
frees the lowest of those; its one write is the freed voice's 0xB0 register, key-on clear. Percussion: it
frees the drum's voice, with one write of 0xBD. -/
def Obligations.NoteOnThenOffFreesTheVoice : Prop :=
  ∀ (c : Chan) (n vel off : U7) (s : State), vel ≠ 0 → s.nc ≠ 2 ^ s.cfg.ncWidth - 1 →
    Memory.wf s.mirror →
    (¬ isPercussion s c → ∀ v, v = findVoice s (s.channel c).instrument →
      ((∀ i, i < v → ¬ isSounding s c n i) →
        ∃ t u x, exec (.noteOn c n vel) s = .next t ∧ exec (.noteOff c n off) t = .next u ∧
          u.isFree v = true ∧ u.out = t.out ++ [.write (regB0 v) x] ∧ x.getLsbD 5 = false ∧
          (∀ j, j ≠ v → u.voice j = s.voice j)) ∧
      (∀ i, i < v → isSounding s c n i → (∀ j, j < i → ¬ isSounding s c n j) →
        ∃ t u x, exec (.noteOn c n vel) s = .next t ∧ exec (.noteOff c n off) t = .next u ∧
          u.isFree i = true ∧ u.out = t.out ++ [.write (regB0 i) x] ∧ x.getLsbD 5 = false ∧
          (∀ j, j ≠ i → u.voice j = t.voice j))) ∧
    (∀ d, s.rhy = true → drumOfChannel c = some d →
      ∃ t u, exec (.noteOn c n vel) s = .next t ∧ exec (.noteOff c n off) t = .next u ∧
        u.isFree d.voice = true ∧
        u.out = t.out ++ [.write 0xBD (s.mirrorAt 0xBD &&& ~~~d.bit)] ∧
        (∀ j, j ≠ d.voice → u.voice j = s.voice j))

/-- R260: while rhythm mode is on, a note message of a melodic channel touches only voices 0 to 5 and
their registers, and one of a drum channel only voices 6 to 8 and theirs: the record, the frequency and
connection registers and the ten operator registers of every other voice stay as they were. -/
def Obligations.RhythmModeSeparatesVoices : Prop :=
  ∀ (c : Chan) (n vel : U7) (s t : State), s.rhy = true → Memory.wf s.mirror →
    (exec (.noteOn c n vel) s = .next t ∨ exec (.noteOff c n vel) s = .next t) →
    ∀ v : VoiceId, (c.val < 11 ∧ 6 ≤ v.val) ∨ (11 ≤ c.val ∧ v.val < 6) →
      t.voice v = s.voice v ∧
      (∀ base ∈ [0xA0, 0xB0, 0xC0],
        t.mirrorAt (BitVec.ofNat 8 (base + v.val)) = s.mirrorAt (BitVec.ofNat 8 (base + v.val))) ∧
      (∀ base ∈ [0x20, 0x40, 0x60, 0x80, 0xE0], ∀ o ∈ [v.val / 3 * 8 + v.val % 3, v.val / 3 * 8 + v.val % 3 + 3],
        t.mirrorAt (BitVec.ofNat 8 (base + o)) = s.mirrorAt (BitVec.ofNat 8 (base + o)))

/-- R246, R247, R71: binding an instrument to a voice is these eleven writes in this order, at the
operator offsets (v div 3) * 8 + v mod 3 and three above. -/
def Obligations.BindingWritesElevenRegisters : Prop :=
  ∀ (v : VoiceId) (i : Instrument) (m : Nat), m = v.val / 3 * 8 + v.val % 3 →
    bindWrites v i =
      [(BitVec.ofNat 8 (0x20 + m), i.mod.b20), (BitVec.ofNat 8 (0x40 + m), i.mod.b40),
       (BitVec.ofNat 8 (0x60 + m), i.mod.b60), (BitVec.ofNat 8 (0x80 + m), i.mod.b80),
       (BitVec.ofNat 8 (0xE0 + m), i.mod.bE0),
       (BitVec.ofNat 8 (0x23 + m), i.car.b20), (BitVec.ofNat 8 (0x43 + m), i.car.b40),
       (BitVec.ofNat 8 (0x63 + m), i.car.b60), (BitVec.ofNat 8 (0x83 + m), i.car.b80),
       (BitVec.ofNat 8 (0xE3 + m), i.car.bE0),
       (BitVec.ofNat 8 (0xC0 + v.val), i.conn)]

/-! ### Frequency -/

/-- R281, R74, R356: for a block of three bits and a 10-bit F-number the packed byte holds key-on in bit 5,
the block in bits 4:2, F-number bits 9:8 in bits 1:0, and 0 in bits 7:6, under both packings; for a keyed
note the two packings agree on every block 0..9; with key-on clear, blocks 8 and 9 set bit 5 under
truncate8 and become blocks 0 and 1 under mask3. -/
def Obligations.PackPlacesTheFields : Prop :=
  (∀ (p : BlockPacking) (blk fn : Nat) (key : Bool), blk < 8 → fn < 1024 →
    ((packKeyBlock p blk fn key).getLsbD 5 = key ∧
      (packKeyBlock p blk fn key).toNat / 4 % 8 = blk ∧
      (packKeyBlock p blk fn key).toNat % 4 = fn / 256 ∧
      (packKeyBlock p blk fn key).toNat / 64 = 0 ∧
      (fnumLow fn).toNat = fn % 256)) ∧
  (∀ blk fn : Nat, blk < 10 →
    packKeyBlock .truncate8 blk fn true = packKeyBlock .mask3 blk fn true) ∧
  (∀ blk fn : Nat, 8 ≤ blk → blk < 10 → fn < 1024 →
    (packKeyBlock .truncate8 blk fn false).toNat = 0x20 + 4 * (blk - 8) + fn / 256 ∧
    (packKeyBlock .mask3 blk fn false).toNat = 4 * (blk - 8) + fn / 256 ∧
    (packKeyBlock .mask3 blk fn true).toNat = 0x20 + 4 * (blk - 8) + fn / 256)

/-- R280: Block(n) for every note, by the octave. -/
def Obligations.BlockTable : Prop :=
  ∀ n : Nat, n < 128 →
    blockOf n = [0, 1, 1, 2, 3, 4, 5, 6, 7, 8, 9].getD (n / 12) 0

/-- R282: over the whole domain the integer search computes the reference formula over the reals:
floor(440 * 2^(e/12) * 2^(20 − Block(n)) / 50000 + 1/2), e = (n − 69) + (bend − 8192)/8192 + tr/128. -/
def Obligations.FnumIsTheReferenceFormula : Prop :=
  ∀ (n bend : Nat) (tr : Int), n < 128 → bend < 16384 → -127 ≤ tr → tr ≤ 127 →
    ((fnumReference n bend tr : Nat) : Int) =
      ⌊(440 : ℝ) *
        (2 : ℝ) ^ ((((n : ℝ) - 69) + ((bend : ℝ) - 8192) / 8192 + (tr : ℝ) / 128) / 12) *
        (2 : ℝ) ^ ((20 : ℝ) - (blockOf n : ℝ)) / 50000 + 1 / 2⌋

/-- R284: under the reference formula every F-number lies in 153..726, so no note-on logs FreqOverflow
or has its F-number reduced. -/
def Obligations.FnumStaysInRange : Prop :=
  ∀ (n bend : Nat) (tr : Int), n < 128 → bend < 16384 → -127 ≤ tr → tr ≤ 127 →
    153 ≤ fnumReference n bend tr ∧ fnumReference n bend tr ≤ 726 ∧
    reduceFnum (fnumReference n bend tr) = fnumReference n bend tr

/-- R283: the F-number of every note at centre bend and transpose 0, the off-centre values of note 60,
and its register values. -/
def Obligations.FnumTableValues : Prop :=
  (∀ n : Nat, n < 128 → fnumReference n 8192 0 =
    (if n < 24 then [171, 182, 192, 204, 216, 229, 242, 257, 272, 288, 306, 324]
      else [343, 363, 385, 408, 432, 458, 485, 514, 544, 577, 611, 647]).getD (n % 12) 0) ∧
  (fnumReference 60 0 0 = 324 ∧ fnumReference 60 4096 0 = 333 ∧ fnumReference 60 12288 0 = 353 ∧
    fnumReference 60 16383 0 = 363) ∧
  (fnumReference 60 8192 64 = 353 ∧ fnumReference 60 8192 127 = 363 ∧
    fnumReference 60 8192 (-127) = 324) ∧
  (∀ p : BlockPacking, fnumLow 343 = 0x57 ∧ packKeyBlock p (blockOf 60) 343 true = 0x31 ∧
    clearBits (packKeyBlock p (blockOf 60) 343 true) keyOn = 0x11)

/-- R287: for every velocity 1..127 the level is max(0, min(0x3F, trunc(37 − sqrt(16 * vel)))) over the
reals, truncated toward zero, and 0 above 0x7B; its integer form; it is 0 from 82 up and at most 33. -/
def Obligations.PercLevelIsTheFormula : Prop :=
  ∀ vel : Nat, 1 ≤ vel → vel ≤ 127 →
    ((percLevel vel : Nat) : Int) =
      (if 0x7B < vel then 0
      else max 0 (min 0x3F
        (if 0 ≤ (37 : ℝ) - Real.sqrt (16 * (vel : ℝ)) then ⌊(37 : ℝ) - Real.sqrt (16 * (vel : ℝ))⌋
          else ⌈(37 : ℝ) - Real.sqrt (16 * (vel : ℝ))⌉))) ∧
    percLevel vel = 36 - isqrt (16 * vel - 1) ∧
    (82 ≤ vel → percLevel vel = 0) ∧ percLevel vel ≤ percLevel 1 ∧ percLevel 1 = 33

/-- R288: the level of every velocity. -/
def Obligations.PercLevelTable : Prop :=
  ∀ vel : Nat, 1 ≤ vel → vel ≤ 127 → percLevel vel =
    ([0, 33, 31, 30, 29, 28, 27, 26, 25, 25, 24, 23, 23, 22, 22, 21, 21, 20, 20, 19, 19, 18, 18, 17, 17,
      17, 16, 16, 15, 15, 15, 14, 14, 14, 13, 13, 13, 12, 12, 12, 11, 11, 11, 10, 10, 10, 9, 9, 9, 9, 8, 8,
      8, 7, 7, 7, 7, 6, 6, 6, 6, 5, 5, 5, 5, 4, 4, 4, 4, 3, 3, 3, 3, 2, 2, 2, 2, 1, 1, 1, 1, 1] ++
      List.replicate 46 0).getD vel 99

/-- R11: isqrt(x) is the largest integer whose square is at most x. -/
def Obligations.IsqrtIsTheIntegerRoot : Prop :=
  ∀ x : Nat, x < 2 ^ 32 → isqrt x * isqrt x ≤ x ∧ x < (isqrt x + 1) * (isqrt x + 1)

/-! ### Reset and the loader -/

/-- R39, R330: Reset with TPS ≠ 0 and no presets puts every engine field at its reset value under the
given configuration and emits nothing. -/
def Obligations.ResetValues : Prop :=
  ∀ cfg : Config, cfg.tps ≠ 0 → cfg.presetPercFreqs = false →
    ∃ s, resetEngine cfg = .ok s ∧ s.cfg = cfg ∧ s.run = .running ∧ s.ptr = 0 ∧ s.rs = 0x00 ∧
      s.rhy = false ∧ s.tr = 0 ∧ s.nc = 0 ∧
      (∀ c, s.channel c = ⟨0, 8192⟩) ∧ (∀ i, s.voice i = ⟨0, none, none, none⟩) ∧
      (∀ r, s.mirrorAt r = 0x00) ∧ s.out = [] ∧ s.log = []

/-- R333: with PRESET_PERC_FREQS, Reset writes for each preset in list order 0xA0+v with the F-number's
low byte and 0xB0+v with block and F-number bits 9:8, key-on 0; nothing else differs from the reset
values. The two default presets give the four writes of R333's example. -/
def Obligations.PresetWritesFollowTheList : Prop :=
  (∀ cfg : Config, cfg.tps ≠ 0 → cfg.presetPercFreqs = true →
    ∃ s, resetEngine cfg = .ok s ∧
      s.out = cfg.presetValues.flatMap (fun p =>
        [.write (regA0 p.voice) (BitVec.ofNat 8 (p.fnum.toNat % 256)),
         .write (regB0 p.voice) (BitVec.ofNat 8 (p.block.toNat * 4 + p.fnum.toNat / 256))]) ∧
      s = { State.initial cfg with mirror := s.mirror, out := s.out }) ∧
  (∀ s, resetEngine { Config.default with presetPercFreqs := true } = .ok s →
    s.out = [.write 0xA7 0xFD, .write 0xB7 0x09, .write 0xA8 0x02, .write 0xB8 0x06])

/-- R131, R132, R134: a successful bank load fills slot k < count from record k, 16 bytes apart, each field
from the record byte its layout names (the default layout naming bytes 0 to 10 as R132 lists them), and
every slot k ≥ count with the default patch k mod 16; more than 128 records or a record cut short is
refused. -/
def Obligations.LoaderFillsTheBank : Prop :=
  (∀ (layout : RecordLayout) (patches : Fin 16 → Instrument) (file : List Byte) (a count : Nat),
    (128 < count → loadBank layout patches file a count = .error .instrumentCountRange) ∧
    (count ≤ 128 → (∀ k, k < count → a + 16 * k + 11 ≤ file.length) →
      ∃ bank, loadBank layout patches file a count = .ok bank ∧
        ∀ k : Fin 128,
          (k.val < count → ∀ r : Fin 11 → Byte, (∀ j, file[a + 16 * k.val + j.val]? = some (r j)) →
            bank[k] =
              ⟨⟨r layout.modB20, r layout.modB40, r layout.modB60, r layout.modB80, r layout.modBE0⟩,
                ⟨r layout.carB20, r layout.carB40, r layout.carB60, r layout.carB80, r layout.carBE0⟩,
                r layout.conn⟩ ∧
            (layout = .default → bank[k] =
              ⟨⟨r 0, r 2, r 4, r 6, r 8⟩, ⟨r 1, r 3, r 5, r 7, r 9⟩, r 10⟩)) ∧
          (count ≤ k.val → bank[k] = patches ⟨k.val % 16, Nat.mod_lt _ (by decide)⟩)) ∧
    (count ≤ 128 → (∃ k, k < count ∧ file.length < a + 16 * k + 11) →
      loadBank layout patches file a count = .error .truncatedInput))

/-- R136, R307, R308: under the default layout, the header checks in their order, and what a header that
passes them gives. -/
def Obligations.HeaderChecksInOrder : Prop :=
  ∀ file : List Byte, 6 ≤ file.length →
    (file.take 4 ≠ [0x43, 0x54, 0x4D, 0x46] →
      readHeader .default file = .error .badMagic) ∧
    (file.take 4 = [0x43, 0x54, 0x4D, 0x46] →
      (fileU16 file 4 ≠ 0x0100 → fileU16 file 4 ≠ 0x0101 →
        readHeader .default file = .error .unsupportedVersion) ∧
      (fileU16 file 4 = 0x0100 → file.length < 0x25 →
        readHeader .default file = .error .truncatedInput) ∧
      (fileU16 file 4 = 0x0101 → file.length < 0x28 →
        readHeader .default file = .error .truncatedInput) ∧
      (fileU16 file 4 = 0x0100 → 0x25 ≤ file.length →
        ∃ h, readHeader .default file = .ok h ∧ h.ticksPerSecond = fileU16 file 0x0C ∧
          h.musicOffset = fileU16 file 0x08 ∧ h.instrumentOffset = fileU16 file 0x06 ∧
          h.instrumentCount = (fileByte file 0x24).toNat ∧ h.tempo = none) ∧
      (fileU16 file 4 = 0x0101 → 0x28 ≤ file.length →
        ∃ h, readHeader .default file = .ok h ∧ h.ticksPerSecond = fileU16 file 0x0C ∧
          h.musicOffset = fileU16 file 0x08 ∧ h.instrumentOffset = fileU16 file 0x06 ∧
          h.instrumentCount = fileU16 file 0x24 ∧ h.tempo = some (fileU16 file 0x26)))

/-- R138, R333, R336: a file whose header and records are accepted and whose TPS is not 0 boots into the
reset state of its configuration, with the whole music-data region still to be read; the configuration is
the host's parameters with the file's stream, TPS and bank; with PRESET_PERC_FREQS the preset writes are
made, else none. A file or a TPS that is refused reports its error. -/
def Obligations.BootReadsTheMusicRegion : Prop :=
  ∀ (records : RecordLayout) (layout : HeaderLayout) (patches : Fin 16 → Instrument)
    (params : Config) (file : List Byte),
    (∀ e, readHeader layout file = .error e → boot records layout patches params file = .error e) ∧
    ∀ h, readHeader layout file = .ok h →
      (∀ e, loadBank records patches file h.instrumentOffset h.instrumentCount = .error e →
        boot records layout patches params file = .error e) ∧
      ∀ bank, loadBank records patches file h.instrumentOffset h.instrumentCount = .ok bank →
        (BitVec.ofNat 16 h.ticksPerSecond = 0 →
          boot records layout patches params file = .error .configError) ∧
        (BitVec.ofNat 16 h.ticksPerSecond ≠ 0 →
          ∃ s, boot records layout patches params file = .ok s ∧
            s.remaining = file.drop h.musicOffset ∧
            s.cfg = { params with
              music := s.cfg.music, tps := BitVec.ofNat 16 h.ticksPerSecond, bank := bank } ∧
            s = { State.initial s.cfg with mirror := s.mirror, out := s.out } ∧
            mirrorReplaysOutput s ∧
            (params.presetPercFreqs = false → s = State.initial s.cfg) ∧
            (params.presetPercFreqs = true →
              s.out = params.presetValues.flatMap (fun p =>
                [.write (regA0 p.voice) (BitVec.ofNat 8 (p.fnum.toNat % 256)),
                 .write (regB0 p.voice) (BitVec.ofNat 8 (p.block.toNat * 4 + p.fnum.toNat / 256))])))
end

