-- ==== Sys2Proof/Laws/Memory.lean ====
section
/-! SUPPORT. The laws of a byte memory: what a read gives after a write, and that every operation keeps
the canonical form, so that equal memories are equal data. -/

namespace Sys2Proof.Machine

theorem Memory.read_entry (a : Nat) (b : Byte) (m : Memory) (x : Nat)
    (h : Memory.read m a = Memory.unlisted) :
    Memory.read (Memory.entry a b m) x = if x = a then b else Memory.read m x := by
  unfold Memory.entry
  split
  · next hb =>
    split
    · next hx => rw [hx, h, hb]
    · rfl
  · by_cases hx : x = a
    · simp [Memory.read, hx]
    · have : ¬ a = x := fun e => hx e.symm
      simp [Memory.read, hx, this]

/-- An address below every listed one is unlisted. -/
theorem Memory.read_below {m : Memory} {a : Nat} (h : ∀ x ∈ m, a < x.1) :
    Memory.read m a = Memory.unlisted := by
  induction m with
  | nil => rfl
  | cons x m ih =>
    obtain ⟨k, b⟩ := x
    have hk : a < k := h (k, b) (by simp)
    have : ¬ k = a := by omega
    simp only [Memory.read, this, if_false]
    exact ih fun y hy => h y (by simp [hy])

/-- Reading after a write: the written byte at its address, every other address as before. -/
theorem Memory.read_write {m : Memory} (hm : Memory.wf m) (a : Nat) (b : Byte) (x : Nat) :
    Memory.read (Memory.write m a b) x = if x = a then b else Memory.read m x := by
  induction m with
  | nil => exact Memory.read_entry a b [] x rfl
  | cons y m ih =>
    obtain ⟨k, c⟩ := y
    obtain ⟨hp, hu⟩ := hm
    rw [List.pairwise_cons] at hp
    have htail : Memory.wf m := ⟨hp.2, fun z hz => hu z (by simp [hz])⟩
    unfold Memory.write
    split
    · next hlt =>
      refine Memory.read_entry a b _ x (Memory.read_below ?_)
      intro z hz
      rcases List.mem_cons.mp hz with rfl | hz
      · exact hlt
      · exact lt_trans hlt (hp.1 z hz)
    · split
      · next hge heq =>
        subst heq
        rw [Memory.read_entry a b m x (Memory.read_below fun z hz => hp.1 z hz)]
        by_cases hx : x = a
        · simp [hx]
        · have : ¬ a = x := fun e => hx e.symm
          simp [Memory.read, hx, this]
      · next hge hne =>
        by_cases hk : k = x
        · subst hk
          have : ¬ k = a := fun e => hne e.symm
          simp [Memory.read, this]
        · simp only [Memory.read, hk, if_false]
          exact ih htail

/-- Every address a write lists is the written one or was listed. -/
theorem Memory.mem_write {m : Memory} {a : Nat} {b : Byte} {x : Host.Cell}
    (hx : x ∈ Memory.write m a b) : x ∈ m ∨ (x = (a, b) ∧ b ≠ Memory.unlisted) := by
  induction m with
  | nil =>
    unfold Memory.write Memory.entry at hx
    split at hx
    · cases hx
    · next hb => simp at hx; exact .inr ⟨hx, hb⟩
  | cons y m ih =>
    obtain ⟨k, c⟩ := y
    unfold Memory.write at hx
    split at hx
    · unfold Memory.entry at hx
      split at hx
      · exact .inl hx
      · next hb =>
        rcases List.mem_cons.mp hx with h | h
        · exact .inr ⟨h, hb⟩
        · exact .inl h
    · split at hx
      · unfold Memory.entry at hx
        split at hx
        · exact .inl (List.mem_cons_of_mem _ hx)
        · next hb =>
          rcases List.mem_cons.mp hx with h | h
          · exact .inr ⟨h, hb⟩
          · exact .inl (List.mem_cons_of_mem _ h)
      · rcases List.mem_cons.mp hx with h | h
        · exact .inl (by simp [h])
        · rcases ih h with h' | h'
          · exact .inl (List.mem_cons_of_mem _ h')
          · exact .inr h'

/-- A write keeps the canonical form. -/
theorem Memory.write_wf {m : Memory} (hm : Memory.wf m) (a : Nat) (b : Byte) :
    Memory.wf (Memory.write m a b) := by
  refine ⟨?_, ?_⟩
  · induction m with
    | nil =>
      unfold Memory.write Memory.entry
      split <;> simp
    | cons y m ih =>
      obtain ⟨k, c⟩ := y
      obtain ⟨hp, hu⟩ := hm
      have hp' := List.pairwise_cons.mp hp
      have htail : Memory.wf m := ⟨hp'.2, fun z hz => hu z (by simp [hz])⟩
      unfold Memory.write
      split
      · next hlt =>
        unfold Memory.entry
        split
        · exact hp
        · refine List.pairwise_cons.mpr ⟨?_, hp⟩
          intro z hz
          rcases List.mem_cons.mp hz with rfl | hz
          · exact hlt
          · exact lt_trans hlt (hp'.1 z hz)
      · split
        · next heq =>
          subst heq
          unfold Memory.entry
          split
          · exact hp'.2
          · exact List.pairwise_cons.mpr ⟨hp'.1, hp'.2⟩
        · next hge hne =>
          refine List.pairwise_cons.mpr ⟨?_, ih htail⟩
          intro z hz
          rcases Memory.mem_write hz with h | ⟨rfl, -⟩
          · exact hp'.1 z h
          · show k < a
            omega
  · intro x hx
    rcases Memory.mem_write hx with h | ⟨rfl, hb⟩
    · exact hm.2 x h
    · exact hb

/-- Writing a list keeps the canonical form. -/
theorem Memory.writeList_wf {m : Memory} (hm : Memory.wf m) (a : Nat) (bs : List Byte) :
    Memory.wf (Memory.writeList m a bs) := by
  induction bs generalizing m a with
  | nil => exact hm
  | cons b bs ih => exact ih (Memory.write_wf hm a b) (a + 1)

/-- Reading after a list of bytes has been written at rising addresses. -/
theorem Memory.read_writeList {m : Memory} (hm : Memory.wf m) (a : Nat) (bs : List Byte) (x : Nat) :
    Memory.read (Memory.writeList m a bs) x =
      if a ≤ x then (bs[x - a]?).getD (Memory.read m x) else Memory.read m x := by
  induction bs generalizing m a with
  | nil => simp [Memory.writeList]
  | cons b bs ih =>
    rw [Memory.writeList, ih (Memory.write_wf hm a b), Memory.read_write hm]
    by_cases h : a + 1 ≤ x
    · have h1 : a ≤ x := by omega
      have h2 : x ≠ a := by omega
      have h3 : x - a = (x - (a + 1)) + 1 := by omega
      simp [h, h1, h2, h3]
    · by_cases h2 : x = a
      · subst h2; simp
      · have h1 : ¬ a ≤ x := by omega
        simp [h, h1, h2]

/-- The stream of a list of bytes is in canonical form. -/
theorem musicOfBytes_wf (bytes : List Byte) : Memory.wf (musicOfBytes bytes).cells :=
  Memory.writeList_wf ⟨List.Pairwise.nil, by simp⟩ 0 bytes

/-- The stream of a list of bytes reads back as that list. -/
theorem musicOfBytes_read (bytes : List Byte) (a : Nat) :
    Memory.read (musicOfBytes bytes).cells a = (bytes[a]?).getD 0 := by
  have h := Memory.read_writeList (m := []) ⟨List.Pairwise.nil, by simp⟩ 0 bytes a
  simpa [musicOfBytes, Memory.read, Memory.unlisted] using h

/-- A listed cell of a canonical memory is what its address reads as. -/
theorem Memory.read_of_mem {m : Memory} (hm : Memory.wf m) {x : Host.Cell} (hx : x ∈ m) :
    Memory.read m x.1 = x.2 := by
  induction m with
  | nil => cases hx
  | cons y m ih =>
    obtain ⟨k, c⟩ := y
    have hp := List.pairwise_cons.mp hm.1
    rcases List.mem_cons.mp hx with rfl | h
    · simp [Memory.read]
    · have : ¬ k = x.1 := by have := hp.1 x h; simp at this; omega
      simp only [Memory.read, this, if_false]
      exact ih ⟨hp.2, fun z hz => hm.2 z (by simp [hz])⟩ h

/-- Canonical memories that read alike are the same data. -/
theorem Memory.ext_read {m m' : Memory} (hm : Memory.wf m) (hm' : Memory.wf m')
    (h : ∀ a, Memory.read m a = Memory.read m' a) : m = m' := by
  induction m generalizing m' with
  | nil =>
    cases m' with
    | nil => rfl
    | cons y m' =>
      have := h y.1
      rw [Memory.read_of_mem hm' (x := y) (by simp)] at this
      exact absurd this.symm (hm'.2 y (by simp))
  | cons x m ih =>
    have hp := List.pairwise_cons.mp hm.1
    cases m' with
    | nil =>
      have := h x.1
      rw [Memory.read_of_mem hm (x := x) (by simp)] at this
      exact absurd this (hm.2 x (by simp))
    | cons y m' =>
      have hp' := List.pairwise_cons.mp hm'.1
      have hx := Memory.read_of_mem hm (x := x) (by simp)
      have hy := Memory.read_of_mem hm' (x := y) (by simp)
      have key : x.1 = y.1 := by
        rcases lt_trichotomy x.1 y.1 with hlt | heq | hgt
        · have : Memory.read (y :: m') x.1 = Memory.unlisted := by
            refine Memory.read_below fun z hz => ?_
            rcases List.mem_cons.mp hz with rfl | hz
            · exact hlt
            · exact lt_trans hlt (hp'.1 z hz)
          rw [← h, hx] at this
          exact absurd this (hm.2 x (by simp))
        · exact heq
        · have : Memory.read (x :: m) y.1 = Memory.unlisted := by
            refine Memory.read_below fun z hz => ?_
            rcases List.mem_cons.mp hz with rfl | hz
            · exact hgt
            · exact lt_trans hgt (hp.1 z hz)
          rw [h, hy] at this
          exact absurd this (hm'.2 y (by simp))
      have hxy : x = y := by
        refine Prod.ext key ?_
        rw [← hx, ← hy, ← key, h]
      subst hxy
      congr 1
      refine ih ⟨hp.2, fun z hz => hm.2 z (by simp [hz])⟩
        ⟨hp'.2, fun z hz => hm'.2 z (by simp [hz])⟩ fun a => ?_
      by_cases ha : x.1 = a
      · subst ha
        rw [Memory.read_below fun z hz => hp.1 z hz, Memory.read_below fun z hz => hp'.1 z hz]
      · have := h a
        obtain ⟨k, c⟩ := x
        simpa [Memory.read, ha] using this

end Sys2Proof.Machine
end

