-- ==== Sys2Proof/Laws/State.lean ====
section
/-! SUPPORT. For each update of the state, what every field and every accessor reads after it: one lemma
per field per update, so that no later proof unfolds a record update. -/

namespace Sys2Proof.Machine

variable (s : State)

/-! ### advance -/

@[simp] theorem State.advance_cfg (n : Nat) : (s.advance n).cfg = s.cfg := rfl
@[simp] theorem State.advance_run (n : Nat) : (s.advance n).run = s.run := rfl
@[simp] theorem State.advance_ptr (n : Nat) : (s.advance n).ptr = s.ptr + n := rfl
@[simp] theorem State.advance_rs (n : Nat) : (s.advance n).rs = s.rs := rfl
@[simp] theorem State.advance_rhy (n : Nat) : (s.advance n).rhy = s.rhy := rfl
@[simp] theorem State.advance_tr (n : Nat) : (s.advance n).tr = s.tr := rfl
@[simp] theorem State.advance_nc (n : Nat) : (s.advance n).nc = s.nc := rfl
@[simp] theorem State.advance_ch (n : Nat) : (s.advance n).ch = s.ch := rfl
@[simp] theorem State.advance_v (n : Nat) : (s.advance n).v = s.v := rfl
@[simp] theorem State.advance_mirror (n : Nat) : (s.advance n).mirror = s.mirror := rfl
@[simp] theorem State.advance_out (n : Nat) : (s.advance n).out = s.out := rfl
@[simp] theorem State.advance_log (n : Nat) : (s.advance n).log = s.log := rfl
@[simp] theorem State.advance_channel (n : Nat) (c' : Chan) : (s.advance n).channel c' = s.channel c' := rfl
@[simp] theorem State.advance_voice (n : Nat) (i' : VoiceId) : (s.advance n).voice i' = s.voice i' := rfl
@[simp] theorem State.advance_mirrorAt (n : Nat) (r' : Byte) : (s.advance n).mirrorAt r' = s.mirrorAt r' := rfl
@[simp] theorem State.advance_bankAt (n : Nat) (k' : U7) : (s.advance n).bankAt k' = s.bankAt k' := rfl
@[simp] theorem State.advance_streamByte (n : Nat) (a' : Nat) : (s.advance n).streamByte a' = s.streamByte a' := rfl
@[simp] theorem State.advance_streamLength (n : Nat) : (s.advance n).streamLength = s.streamLength := rfl
@[simp] theorem State.advance_ncMax (n : Nat) : (s.advance n).ncMax = s.ncMax := rfl
@[simp] theorem State.advance_rawFnum (n : Nat) (c' : Chan) (n' : U7) : (s.advance n).rawFnum c' n' = s.rawFnum c' n' := rfl
@[simp] theorem State.advance_isFree (n : Nat) (i' : VoiceId) : (s.advance n).isFree i' = s.isFree i' := rfl
@[simp] theorem State.advance_tickResult (n : Nat) : (s.advance n).tickResult = s.tickResult := rfl

/-! ### rewind -/

@[simp] theorem State.rewind_cfg : s.rewind.cfg = s.cfg := rfl
@[simp] theorem State.rewind_run : s.rewind.run = s.run := rfl
@[simp] theorem State.rewind_ptr : s.rewind.ptr = s.ptr - 1 := rfl
@[simp] theorem State.rewind_rs : s.rewind.rs = s.rs := rfl
@[simp] theorem State.rewind_rhy : s.rewind.rhy = s.rhy := rfl
@[simp] theorem State.rewind_tr : s.rewind.tr = s.tr := rfl
@[simp] theorem State.rewind_nc : s.rewind.nc = s.nc := rfl
@[simp] theorem State.rewind_ch : s.rewind.ch = s.ch := rfl
@[simp] theorem State.rewind_v : s.rewind.v = s.v := rfl
@[simp] theorem State.rewind_mirror : s.rewind.mirror = s.mirror := rfl
@[simp] theorem State.rewind_out : s.rewind.out = s.out := rfl
@[simp] theorem State.rewind_log : s.rewind.log = s.log := rfl
@[simp] theorem State.rewind_channel  (c' : Chan) : s.rewind.channel c' = s.channel c' := rfl
@[simp] theorem State.rewind_voice  (i' : VoiceId) : s.rewind.voice i' = s.voice i' := rfl
@[simp] theorem State.rewind_mirrorAt  (r' : Byte) : s.rewind.mirrorAt r' = s.mirrorAt r' := rfl
@[simp] theorem State.rewind_bankAt  (k' : U7) : s.rewind.bankAt k' = s.bankAt k' := rfl
@[simp] theorem State.rewind_streamByte  (a' : Nat) : s.rewind.streamByte a' = s.streamByte a' := rfl
@[simp] theorem State.rewind_streamLength : s.rewind.streamLength = s.streamLength := rfl
@[simp] theorem State.rewind_ncMax : s.rewind.ncMax = s.ncMax := rfl
@[simp] theorem State.rewind_rawFnum  (c' : Chan) (n' : U7) : s.rewind.rawFnum c' n' = s.rawFnum c' n' := rfl
@[simp] theorem State.rewind_isFree  (i' : VoiceId) : s.rewind.isFree i' = s.isFree i' := rfl
@[simp] theorem State.rewind_tickResult : s.rewind.tickResult = s.tickResult := rfl

/-! ### setRs -/

@[simp] theorem State.setRs_cfg (b : Byte) : (s.setRs b).cfg = s.cfg := rfl
@[simp] theorem State.setRs_run (b : Byte) : (s.setRs b).run = s.run := rfl
@[simp] theorem State.setRs_ptr (b : Byte) : (s.setRs b).ptr = s.ptr := rfl
@[simp] theorem State.setRs_rs (b : Byte) : (s.setRs b).rs = b := rfl
@[simp] theorem State.setRs_rhy (b : Byte) : (s.setRs b).rhy = s.rhy := rfl
@[simp] theorem State.setRs_tr (b : Byte) : (s.setRs b).tr = s.tr := rfl
@[simp] theorem State.setRs_nc (b : Byte) : (s.setRs b).nc = s.nc := rfl
@[simp] theorem State.setRs_ch (b : Byte) : (s.setRs b).ch = s.ch := rfl
@[simp] theorem State.setRs_v (b : Byte) : (s.setRs b).v = s.v := rfl
@[simp] theorem State.setRs_mirror (b : Byte) : (s.setRs b).mirror = s.mirror := rfl
@[simp] theorem State.setRs_out (b : Byte) : (s.setRs b).out = s.out := rfl
@[simp] theorem State.setRs_log (b : Byte) : (s.setRs b).log = s.log := rfl
@[simp] theorem State.setRs_channel (b : Byte) (c' : Chan) : (s.setRs b).channel c' = s.channel c' := rfl
@[simp] theorem State.setRs_voice (b : Byte) (i' : VoiceId) : (s.setRs b).voice i' = s.voice i' := rfl
@[simp] theorem State.setRs_mirrorAt (b : Byte) (r' : Byte) : (s.setRs b).mirrorAt r' = s.mirrorAt r' := rfl
@[simp] theorem State.setRs_bankAt (b : Byte) (k' : U7) : (s.setRs b).bankAt k' = s.bankAt k' := rfl
@[simp] theorem State.setRs_streamByte (b : Byte) (a' : Nat) : (s.setRs b).streamByte a' = s.streamByte a' := rfl
@[simp] theorem State.setRs_streamLength (b : Byte) : (s.setRs b).streamLength = s.streamLength := rfl
@[simp] theorem State.setRs_remaining (b : Byte) : (s.setRs b).remaining = s.remaining := rfl
@[simp] theorem State.setRs_ncMax (b : Byte) : (s.setRs b).ncMax = s.ncMax := rfl
@[simp] theorem State.setRs_rawFnum (b : Byte) (c' : Chan) (n' : U7) : (s.setRs b).rawFnum c' n' = s.rawFnum c' n' := rfl
@[simp] theorem State.setRs_isFree (b : Byte) (i' : VoiceId) : (s.setRs b).isFree i' = s.isFree i' := rfl
@[simp] theorem State.setRs_tickResult (b : Byte) : (s.setRs b).tickResult = s.tickResult := rfl

/-! ### warn -/

@[simp] theorem State.warn_cfg (e : LogEntry) : (s.warn e).cfg = s.cfg := rfl
@[simp] theorem State.warn_run (e : LogEntry) : (s.warn e).run = s.run := rfl
@[simp] theorem State.warn_ptr (e : LogEntry) : (s.warn e).ptr = s.ptr := rfl
@[simp] theorem State.warn_rs (e : LogEntry) : (s.warn e).rs = s.rs := rfl
@[simp] theorem State.warn_rhy (e : LogEntry) : (s.warn e).rhy = s.rhy := rfl
@[simp] theorem State.warn_tr (e : LogEntry) : (s.warn e).tr = s.tr := rfl
@[simp] theorem State.warn_nc (e : LogEntry) : (s.warn e).nc = s.nc := rfl
@[simp] theorem State.warn_ch (e : LogEntry) : (s.warn e).ch = s.ch := rfl
@[simp] theorem State.warn_v (e : LogEntry) : (s.warn e).v = s.v := rfl
@[simp] theorem State.warn_mirror (e : LogEntry) : (s.warn e).mirror = s.mirror := rfl
@[simp] theorem State.warn_out (e : LogEntry) : (s.warn e).out = s.out := rfl
@[simp] theorem State.warn_log (e : LogEntry) : (s.warn e).log = s.log ++ [e] := rfl
@[simp] theorem State.warn_channel (e : LogEntry) (c' : Chan) : (s.warn e).channel c' = s.channel c' := rfl
@[simp] theorem State.warn_voice (e : LogEntry) (i' : VoiceId) : (s.warn e).voice i' = s.voice i' := rfl
@[simp] theorem State.warn_mirrorAt (e : LogEntry) (r' : Byte) : (s.warn e).mirrorAt r' = s.mirrorAt r' := rfl
@[simp] theorem State.warn_bankAt (e : LogEntry) (k' : U7) : (s.warn e).bankAt k' = s.bankAt k' := rfl
@[simp] theorem State.warn_streamByte (e : LogEntry) (a' : Nat) : (s.warn e).streamByte a' = s.streamByte a' := rfl
@[simp] theorem State.warn_streamLength (e : LogEntry) : (s.warn e).streamLength = s.streamLength := rfl
@[simp] theorem State.warn_remaining (e : LogEntry) : (s.warn e).remaining = s.remaining := rfl
@[simp] theorem State.warn_ncMax (e : LogEntry) : (s.warn e).ncMax = s.ncMax := rfl
@[simp] theorem State.warn_rawFnum (e : LogEntry) (c' : Chan) (n' : U7) : (s.warn e).rawFnum c' n' = s.rawFnum c' n' := rfl
@[simp] theorem State.warn_isFree (e : LogEntry) (i' : VoiceId) : (s.warn e).isFree i' = s.isFree i' := rfl
@[simp] theorem State.warn_tickResult (e : LogEntry) : (s.warn e).tickResult = s.tickResult := rfl

/-! ### emitDelay -/

@[simp] theorem State.emitDelay_cfg (ms : BitVec 16) : (s.emitDelay ms).cfg = s.cfg := rfl
@[simp] theorem State.emitDelay_run (ms : BitVec 16) : (s.emitDelay ms).run = s.run := rfl
@[simp] theorem State.emitDelay_ptr (ms : BitVec 16) : (s.emitDelay ms).ptr = s.ptr := rfl
@[simp] theorem State.emitDelay_rs (ms : BitVec 16) : (s.emitDelay ms).rs = s.rs := rfl
@[simp] theorem State.emitDelay_rhy (ms : BitVec 16) : (s.emitDelay ms).rhy = s.rhy := rfl
@[simp] theorem State.emitDelay_tr (ms : BitVec 16) : (s.emitDelay ms).tr = s.tr := rfl
@[simp] theorem State.emitDelay_nc (ms : BitVec 16) : (s.emitDelay ms).nc = s.nc := rfl
@[simp] theorem State.emitDelay_ch (ms : BitVec 16) : (s.emitDelay ms).ch = s.ch := rfl
@[simp] theorem State.emitDelay_v (ms : BitVec 16) : (s.emitDelay ms).v = s.v := rfl
@[simp] theorem State.emitDelay_mirror (ms : BitVec 16) : (s.emitDelay ms).mirror = s.mirror := rfl
@[simp] theorem State.emitDelay_out (ms : BitVec 16) : (s.emitDelay ms).out = s.out ++ [.delay ms] := rfl
@[simp] theorem State.emitDelay_log (ms : BitVec 16) : (s.emitDelay ms).log = s.log := rfl
@[simp] theorem State.emitDelay_channel (ms : BitVec 16) (c' : Chan) : (s.emitDelay ms).channel c' = s.channel c' := rfl
@[simp] theorem State.emitDelay_voice (ms : BitVec 16) (i' : VoiceId) : (s.emitDelay ms).voice i' = s.voice i' := rfl
@[simp] theorem State.emitDelay_mirrorAt (ms : BitVec 16) (r' : Byte) : (s.emitDelay ms).mirrorAt r' = s.mirrorAt r' := rfl
@[simp] theorem State.emitDelay_bankAt (ms : BitVec 16) (k' : U7) : (s.emitDelay ms).bankAt k' = s.bankAt k' := rfl
@[simp] theorem State.emitDelay_streamByte (ms : BitVec 16) (a' : Nat) : (s.emitDelay ms).streamByte a' = s.streamByte a' := rfl
@[simp] theorem State.emitDelay_streamLength (ms : BitVec 16) : (s.emitDelay ms).streamLength = s.streamLength := rfl
@[simp] theorem State.emitDelay_remaining (ms : BitVec 16) : (s.emitDelay ms).remaining = s.remaining := rfl
@[simp] theorem State.emitDelay_ncMax (ms : BitVec 16) : (s.emitDelay ms).ncMax = s.ncMax := rfl
@[simp] theorem State.emitDelay_rawFnum (ms : BitVec 16) (c' : Chan) (n' : U7) : (s.emitDelay ms).rawFnum c' n' = s.rawFnum c' n' := rfl
@[simp] theorem State.emitDelay_isFree (ms : BitVec 16) (i' : VoiceId) : (s.emitDelay ms).isFree i' = s.isFree i' := rfl
@[simp] theorem State.emitDelay_tickResult (ms : BitVec 16) : (s.emitDelay ms).tickResult = s.tickResult := rfl

/-! ### raiseFault -/

@[simp] theorem State.raiseFault_cfg (c : FaultCode) : (s.raiseFault c).cfg = s.cfg := rfl
@[simp] theorem State.raiseFault_run (c : FaultCode) : (s.raiseFault c).run = .faulted c := rfl
@[simp] theorem State.raiseFault_ptr (c : FaultCode) : (s.raiseFault c).ptr = s.ptr := rfl
@[simp] theorem State.raiseFault_rs (c : FaultCode) : (s.raiseFault c).rs = s.rs := rfl
@[simp] theorem State.raiseFault_rhy (c : FaultCode) : (s.raiseFault c).rhy = s.rhy := rfl
@[simp] theorem State.raiseFault_tr (c : FaultCode) : (s.raiseFault c).tr = s.tr := rfl
@[simp] theorem State.raiseFault_nc (c : FaultCode) : (s.raiseFault c).nc = s.nc := rfl
@[simp] theorem State.raiseFault_ch (c : FaultCode) : (s.raiseFault c).ch = s.ch := rfl
@[simp] theorem State.raiseFault_v (c : FaultCode) : (s.raiseFault c).v = s.v := rfl
@[simp] theorem State.raiseFault_mirror (c : FaultCode) : (s.raiseFault c).mirror = s.mirror := rfl
@[simp] theorem State.raiseFault_out (c : FaultCode) : (s.raiseFault c).out = s.out := rfl
@[simp] theorem State.raiseFault_log (c : FaultCode) : (s.raiseFault c).log = s.log := rfl
@[simp] theorem State.raiseFault_channel (c : FaultCode) (c' : Chan) : (s.raiseFault c).channel c' = s.channel c' := rfl
@[simp] theorem State.raiseFault_voice (c : FaultCode) (i' : VoiceId) : (s.raiseFault c).voice i' = s.voice i' := rfl
@[simp] theorem State.raiseFault_mirrorAt (c : FaultCode) (r' : Byte) : (s.raiseFault c).mirrorAt r' = s.mirrorAt r' := rfl
@[simp] theorem State.raiseFault_bankAt (c : FaultCode) (k' : U7) : (s.raiseFault c).bankAt k' = s.bankAt k' := rfl
@[simp] theorem State.raiseFault_streamByte (c : FaultCode) (a' : Nat) : (s.raiseFault c).streamByte a' = s.streamByte a' := rfl
@[simp] theorem State.raiseFault_streamLength (c : FaultCode) : (s.raiseFault c).streamLength = s.streamLength := rfl
@[simp] theorem State.raiseFault_remaining (c : FaultCode) : (s.raiseFault c).remaining = s.remaining := rfl
@[simp] theorem State.raiseFault_ncMax (c : FaultCode) : (s.raiseFault c).ncMax = s.ncMax := rfl
@[simp] theorem State.raiseFault_rawFnum (c : FaultCode) (c' : Chan) (n' : U7) : (s.raiseFault c).rawFnum c' n' = s.rawFnum c' n' := rfl
@[simp] theorem State.raiseFault_isFree (c : FaultCode) (i' : VoiceId) : (s.raiseFault c).isFree i' = s.isFree i' := rfl

/-! ### terminate -/

@[simp] theorem State.terminate_cfg (r : EndReason) : (s.terminate r).cfg = s.cfg := by cases r <;> rfl
@[simp] theorem State.terminate_run (r : EndReason) : (s.terminate r).run = .ended r := by cases r <;> rfl
@[simp] theorem State.terminate_ptr (r : EndReason) : (s.terminate r).ptr = s.ptr := by cases r <;> rfl
@[simp] theorem State.terminate_rs (r : EndReason) : (s.terminate r).rs = s.rs := by cases r <;> rfl
@[simp] theorem State.terminate_rhy (r : EndReason) : (s.terminate r).rhy = s.rhy := by cases r <;> rfl
@[simp] theorem State.terminate_tr (r : EndReason) : (s.terminate r).tr = s.tr := by cases r <;> rfl
@[simp] theorem State.terminate_nc (r : EndReason) : (s.terminate r).nc = s.nc := by cases r <;> rfl
@[simp] theorem State.terminate_ch (r : EndReason) : (s.terminate r).ch = s.ch := by cases r <;> rfl
@[simp] theorem State.terminate_v (r : EndReason) : (s.terminate r).v = s.v := by cases r <;> rfl
@[simp] theorem State.terminate_mirror (r : EndReason) : (s.terminate r).mirror = s.mirror := by cases r <;> rfl
@[simp] theorem State.terminate_out (r : EndReason) : (s.terminate r).out = s.out := by cases r <;> rfl
@[simp] theorem State.terminate_channel (r : EndReason) (c' : Chan) : (s.terminate r).channel c' = s.channel c' := by cases r <;> rfl
@[simp] theorem State.terminate_voice (r : EndReason) (i' : VoiceId) : (s.terminate r).voice i' = s.voice i' := by cases r <;> rfl
@[simp] theorem State.terminate_mirrorAt (r : EndReason) (r' : Byte) : (s.terminate r).mirrorAt r' = s.mirrorAt r' := by cases r <;> rfl
@[simp] theorem State.terminate_bankAt (r : EndReason) (k' : U7) : (s.terminate r).bankAt k' = s.bankAt k' := by cases r <;> rfl
@[simp] theorem State.terminate_streamByte (r : EndReason) (a' : Nat) : (s.terminate r).streamByte a' = s.streamByte a' := by cases r <;> rfl
@[simp] theorem State.terminate_streamLength (r : EndReason) : (s.terminate r).streamLength = s.streamLength := by cases r <;> rfl
@[simp] theorem State.terminate_remaining (r : EndReason) : (s.terminate r).remaining = s.remaining := by cases r <;> rfl
@[simp] theorem State.terminate_ncMax (r : EndReason) : (s.terminate r).ncMax = s.ncMax := by cases r <;> rfl
@[simp] theorem State.terminate_rawFnum (r : EndReason) (c' : Chan) (n' : U7) : (s.terminate r).rawFnum c' n' = s.rawFnum c' n' := by cases r <;> rfl
@[simp] theorem State.terminate_isFree (r : EndReason) (i' : VoiceId) : (s.terminate r).isFree i' = s.isFree i' := by cases r <;> rfl

/-! ### writeReg -/

@[simp] theorem State.writeReg_cfg (r x : Byte) : (s.writeReg r x).cfg = s.cfg := rfl
@[simp] theorem State.writeReg_run (r x : Byte) : (s.writeReg r x).run = s.run := rfl
@[simp] theorem State.writeReg_ptr (r x : Byte) : (s.writeReg r x).ptr = s.ptr := rfl
@[simp] theorem State.writeReg_rs (r x : Byte) : (s.writeReg r x).rs = s.rs := rfl
@[simp] theorem State.writeReg_rhy (r x : Byte) : (s.writeReg r x).rhy = s.rhy := rfl
@[simp] theorem State.writeReg_tr (r x : Byte) : (s.writeReg r x).tr = s.tr := rfl
@[simp] theorem State.writeReg_nc (r x : Byte) : (s.writeReg r x).nc = s.nc := rfl
@[simp] theorem State.writeReg_ch (r x : Byte) : (s.writeReg r x).ch = s.ch := rfl
@[simp] theorem State.writeReg_v (r x : Byte) : (s.writeReg r x).v = s.v := rfl
@[simp] theorem State.writeReg_mirror (r x : Byte) : (s.writeReg r x).mirror = Memory.write s.mirror r.toNat x := rfl
@[simp] theorem State.writeReg_out (r x : Byte) : (s.writeReg r x).out = s.out ++ [.write r x] := rfl
@[simp] theorem State.writeReg_log (r x : Byte) : (s.writeReg r x).log = s.log := rfl
@[simp] theorem State.writeReg_channel (r x : Byte) (c' : Chan) : (s.writeReg r x).channel c' = s.channel c' := rfl
@[simp] theorem State.writeReg_voice (r x : Byte) (i' : VoiceId) : (s.writeReg r x).voice i' = s.voice i' := rfl
@[simp] theorem State.writeReg_bankAt (r x : Byte) (k' : U7) : (s.writeReg r x).bankAt k' = s.bankAt k' := rfl
@[simp] theorem State.writeReg_streamByte (r x : Byte) (a' : Nat) : (s.writeReg r x).streamByte a' = s.streamByte a' := rfl
@[simp] theorem State.writeReg_streamLength (r x : Byte) : (s.writeReg r x).streamLength = s.streamLength := rfl
@[simp] theorem State.writeReg_remaining (r x : Byte) : (s.writeReg r x).remaining = s.remaining := rfl
@[simp] theorem State.writeReg_ncMax (r x : Byte) : (s.writeReg r x).ncMax = s.ncMax := rfl
@[simp] theorem State.writeReg_rawFnum (r x : Byte) (c' : Chan) (n' : U7) : (s.writeReg r x).rawFnum c' n' = s.rawFnum c' n' := rfl
@[simp] theorem State.writeReg_isFree (r x : Byte) (i' : VoiceId) : (s.writeReg r x).isFree i' = s.isFree i' := rfl
@[simp] theorem State.writeReg_tickResult (r x : Byte) : (s.writeReg r x).tickResult = s.tickResult := rfl

/-! ### setChannel -/

@[simp] theorem State.setChannel_cfg (c : Chan) (x : Channel) : (s.setChannel c x).cfg = s.cfg := rfl
@[simp] theorem State.setChannel_run (c : Chan) (x : Channel) : (s.setChannel c x).run = s.run := rfl
@[simp] theorem State.setChannel_ptr (c : Chan) (x : Channel) : (s.setChannel c x).ptr = s.ptr := rfl
@[simp] theorem State.setChannel_rs (c : Chan) (x : Channel) : (s.setChannel c x).rs = s.rs := rfl
@[simp] theorem State.setChannel_rhy (c : Chan) (x : Channel) : (s.setChannel c x).rhy = s.rhy := rfl
@[simp] theorem State.setChannel_tr (c : Chan) (x : Channel) : (s.setChannel c x).tr = s.tr := rfl
@[simp] theorem State.setChannel_nc (c : Chan) (x : Channel) : (s.setChannel c x).nc = s.nc := rfl
@[simp] theorem State.setChannel_ch (c : Chan) (x : Channel) : (s.setChannel c x).ch = s.ch.set c x := rfl
@[simp] theorem State.setChannel_v (c : Chan) (x : Channel) : (s.setChannel c x).v = s.v := rfl
@[simp] theorem State.setChannel_mirror (c : Chan) (x : Channel) : (s.setChannel c x).mirror = s.mirror := rfl
@[simp] theorem State.setChannel_out (c : Chan) (x : Channel) : (s.setChannel c x).out = s.out := rfl
@[simp] theorem State.setChannel_log (c : Chan) (x : Channel) : (s.setChannel c x).log = s.log := rfl
@[simp] theorem State.setChannel_voice (c : Chan) (x : Channel) (i' : VoiceId) : (s.setChannel c x).voice i' = s.voice i' := rfl
@[simp] theorem State.setChannel_mirrorAt (c : Chan) (x : Channel) (r' : Byte) : (s.setChannel c x).mirrorAt r' = s.mirrorAt r' := rfl
@[simp] theorem State.setChannel_bankAt (c : Chan) (x : Channel) (k' : U7) : (s.setChannel c x).bankAt k' = s.bankAt k' := rfl
@[simp] theorem State.setChannel_streamByte (c : Chan) (x : Channel) (a' : Nat) : (s.setChannel c x).streamByte a' = s.streamByte a' := rfl
@[simp] theorem State.setChannel_streamLength (c : Chan) (x : Channel) : (s.setChannel c x).streamLength = s.streamLength := rfl
@[simp] theorem State.setChannel_remaining (c : Chan) (x : Channel) : (s.setChannel c x).remaining = s.remaining := rfl
@[simp] theorem State.setChannel_ncMax (c : Chan) (x : Channel) : (s.setChannel c x).ncMax = s.ncMax := rfl
@[simp] theorem State.setChannel_isFree (c : Chan) (x : Channel) (i' : VoiceId) : (s.setChannel c x).isFree i' = s.isFree i' := rfl
@[simp] theorem State.setChannel_tickResult (c : Chan) (x : Channel) : (s.setChannel c x).tickResult = s.tickResult := rfl

/-! ### setVoice -/

@[simp] theorem State.setVoice_cfg (i : VoiceId) (x : Voice) : (s.setVoice i x).cfg = s.cfg := rfl
@[simp] theorem State.setVoice_run (i : VoiceId) (x : Voice) : (s.setVoice i x).run = s.run := rfl
@[simp] theorem State.setVoice_ptr (i : VoiceId) (x : Voice) : (s.setVoice i x).ptr = s.ptr := rfl
@[simp] theorem State.setVoice_rs (i : VoiceId) (x : Voice) : (s.setVoice i x).rs = s.rs := rfl
@[simp] theorem State.setVoice_rhy (i : VoiceId) (x : Voice) : (s.setVoice i x).rhy = s.rhy := rfl
@[simp] theorem State.setVoice_tr (i : VoiceId) (x : Voice) : (s.setVoice i x).tr = s.tr := rfl
@[simp] theorem State.setVoice_nc (i : VoiceId) (x : Voice) : (s.setVoice i x).nc = s.nc := rfl
@[simp] theorem State.setVoice_ch (i : VoiceId) (x : Voice) : (s.setVoice i x).ch = s.ch := rfl
@[simp] theorem State.setVoice_v (i : VoiceId) (x : Voice) : (s.setVoice i x).v = s.v.set i x := rfl
@[simp] theorem State.setVoice_mirror (i : VoiceId) (x : Voice) : (s.setVoice i x).mirror = s.mirror := rfl
@[simp] theorem State.setVoice_out (i : VoiceId) (x : Voice) : (s.setVoice i x).out = s.out := rfl
@[simp] theorem State.setVoice_log (i : VoiceId) (x : Voice) : (s.setVoice i x).log = s.log := rfl
@[simp] theorem State.setVoice_channel (i : VoiceId) (x : Voice) (c' : Chan) : (s.setVoice i x).channel c' = s.channel c' := rfl
@[simp] theorem State.setVoice_mirrorAt (i : VoiceId) (x : Voice) (r' : Byte) : (s.setVoice i x).mirrorAt r' = s.mirrorAt r' := rfl
@[simp] theorem State.setVoice_bankAt (i : VoiceId) (x : Voice) (k' : U7) : (s.setVoice i x).bankAt k' = s.bankAt k' := rfl
@[simp] theorem State.setVoice_streamByte (i : VoiceId) (x : Voice) (a' : Nat) : (s.setVoice i x).streamByte a' = s.streamByte a' := rfl
@[simp] theorem State.setVoice_streamLength (i : VoiceId) (x : Voice) : (s.setVoice i x).streamLength = s.streamLength := rfl
@[simp] theorem State.setVoice_remaining (i : VoiceId) (x : Voice) : (s.setVoice i x).remaining = s.remaining := rfl
@[simp] theorem State.setVoice_ncMax (i : VoiceId) (x : Voice) : (s.setVoice i x).ncMax = s.ncMax := rfl
@[simp] theorem State.setVoice_rawFnum (i : VoiceId) (x : Voice) (c' : Chan) (n' : U7) : (s.setVoice i x).rawFnum c' n' = s.rawFnum c' n' := rfl
@[simp] theorem State.setVoice_tickResult (i : VoiceId) (x : Voice) : (s.setVoice i x).tickResult = s.tickResult := rfl

/-! ### setRhythm -/

@[simp] theorem State.setRhythm_cfg (b : Bool) : (s.setRhythm b).cfg = s.cfg := rfl
@[simp] theorem State.setRhythm_run (b : Bool) : (s.setRhythm b).run = s.run := rfl
@[simp] theorem State.setRhythm_ptr (b : Bool) : (s.setRhythm b).ptr = s.ptr := rfl
@[simp] theorem State.setRhythm_rs (b : Bool) : (s.setRhythm b).rs = s.rs := rfl
@[simp] theorem State.setRhythm_rhy (b : Bool) : (s.setRhythm b).rhy = b := rfl
@[simp] theorem State.setRhythm_tr (b : Bool) : (s.setRhythm b).tr = s.tr := rfl
@[simp] theorem State.setRhythm_nc (b : Bool) : (s.setRhythm b).nc = s.nc := rfl
@[simp] theorem State.setRhythm_ch (b : Bool) : (s.setRhythm b).ch = s.ch := rfl
@[simp] theorem State.setRhythm_v (b : Bool) : (s.setRhythm b).v = s.v := rfl
@[simp] theorem State.setRhythm_mirror (b : Bool) : (s.setRhythm b).mirror = s.mirror := rfl
@[simp] theorem State.setRhythm_out (b : Bool) : (s.setRhythm b).out = s.out := rfl
@[simp] theorem State.setRhythm_log (b : Bool) : (s.setRhythm b).log = s.log := rfl
@[simp] theorem State.setRhythm_channel (b : Bool) (c' : Chan) : (s.setRhythm b).channel c' = s.channel c' := rfl
@[simp] theorem State.setRhythm_voice (b : Bool) (i' : VoiceId) : (s.setRhythm b).voice i' = s.voice i' := rfl
@[simp] theorem State.setRhythm_mirrorAt (b : Bool) (r' : Byte) : (s.setRhythm b).mirrorAt r' = s.mirrorAt r' := rfl
@[simp] theorem State.setRhythm_bankAt (b : Bool) (k' : U7) : (s.setRhythm b).bankAt k' = s.bankAt k' := rfl
@[simp] theorem State.setRhythm_streamByte (b : Bool) (a' : Nat) : (s.setRhythm b).streamByte a' = s.streamByte a' := rfl
@[simp] theorem State.setRhythm_streamLength (b : Bool) : (s.setRhythm b).streamLength = s.streamLength := rfl
@[simp] theorem State.setRhythm_remaining (b : Bool) : (s.setRhythm b).remaining = s.remaining := rfl
@[simp] theorem State.setRhythm_ncMax (b : Bool) : (s.setRhythm b).ncMax = s.ncMax := rfl
@[simp] theorem State.setRhythm_rawFnum (b : Bool) (c' : Chan) (n' : U7) : (s.setRhythm b).rawFnum c' n' = s.rawFnum c' n' := rfl
@[simp] theorem State.setRhythm_isFree (b : Bool) (i' : VoiceId) : (s.setRhythm b).isFree i' = s.isFree i' := rfl
@[simp] theorem State.setRhythm_tickResult (b : Bool) : (s.setRhythm b).tickResult = s.tickResult := rfl

/-! ### setTranspose -/

@[simp] theorem State.setTranspose_cfg (t : Int) : (s.setTranspose t).cfg = s.cfg := rfl
@[simp] theorem State.setTranspose_run (t : Int) : (s.setTranspose t).run = s.run := rfl
@[simp] theorem State.setTranspose_ptr (t : Int) : (s.setTranspose t).ptr = s.ptr := rfl
@[simp] theorem State.setTranspose_rs (t : Int) : (s.setTranspose t).rs = s.rs := rfl
@[simp] theorem State.setTranspose_rhy (t : Int) : (s.setTranspose t).rhy = s.rhy := rfl
@[simp] theorem State.setTranspose_tr (t : Int) : (s.setTranspose t).tr = t := rfl
@[simp] theorem State.setTranspose_nc (t : Int) : (s.setTranspose t).nc = s.nc := rfl
@[simp] theorem State.setTranspose_ch (t : Int) : (s.setTranspose t).ch = s.ch := rfl
@[simp] theorem State.setTranspose_v (t : Int) : (s.setTranspose t).v = s.v := rfl
@[simp] theorem State.setTranspose_mirror (t : Int) : (s.setTranspose t).mirror = s.mirror := rfl
@[simp] theorem State.setTranspose_out (t : Int) : (s.setTranspose t).out = s.out := rfl
@[simp] theorem State.setTranspose_log (t : Int) : (s.setTranspose t).log = s.log := rfl
@[simp] theorem State.setTranspose_channel (t : Int) (c' : Chan) : (s.setTranspose t).channel c' = s.channel c' := rfl
@[simp] theorem State.setTranspose_voice (t : Int) (i' : VoiceId) : (s.setTranspose t).voice i' = s.voice i' := rfl
@[simp] theorem State.setTranspose_mirrorAt (t : Int) (r' : Byte) : (s.setTranspose t).mirrorAt r' = s.mirrorAt r' := rfl
@[simp] theorem State.setTranspose_bankAt (t : Int) (k' : U7) : (s.setTranspose t).bankAt k' = s.bankAt k' := rfl
@[simp] theorem State.setTranspose_streamByte (t : Int) (a' : Nat) : (s.setTranspose t).streamByte a' = s.streamByte a' := rfl
@[simp] theorem State.setTranspose_streamLength (t : Int) : (s.setTranspose t).streamLength = s.streamLength := rfl
@[simp] theorem State.setTranspose_remaining (t : Int) : (s.setTranspose t).remaining = s.remaining := rfl
@[simp] theorem State.setTranspose_ncMax (t : Int) : (s.setTranspose t).ncMax = s.ncMax := rfl
@[simp] theorem State.setTranspose_isFree (t : Int) (i' : VoiceId) : (s.setTranspose t).isFree i' = s.isFree i' := rfl
@[simp] theorem State.setTranspose_tickResult (t : Int) : (s.setTranspose t).tickResult = s.tickResult := rfl

/-! ### setVoiceInstrument -/

@[simp] theorem State.setVoiceInstrument_cfg (i : VoiceId) (x : Option U7) : (s.setVoiceInstrument i x).cfg = s.cfg := rfl
@[simp] theorem State.setVoiceInstrument_run (i : VoiceId) (x : Option U7) : (s.setVoiceInstrument i x).run = s.run := rfl
@[simp] theorem State.setVoiceInstrument_ptr (i : VoiceId) (x : Option U7) : (s.setVoiceInstrument i x).ptr = s.ptr := rfl
@[simp] theorem State.setVoiceInstrument_rs (i : VoiceId) (x : Option U7) : (s.setVoiceInstrument i x).rs = s.rs := rfl
@[simp] theorem State.setVoiceInstrument_rhy (i : VoiceId) (x : Option U7) : (s.setVoiceInstrument i x).rhy = s.rhy := rfl
@[simp] theorem State.setVoiceInstrument_tr (i : VoiceId) (x : Option U7) : (s.setVoiceInstrument i x).tr = s.tr := rfl
@[simp] theorem State.setVoiceInstrument_nc (i : VoiceId) (x : Option U7) : (s.setVoiceInstrument i x).nc = s.nc := rfl
@[simp] theorem State.setVoiceInstrument_ch (i : VoiceId) (x : Option U7) : (s.setVoiceInstrument i x).ch = s.ch := rfl
@[simp] theorem State.setVoiceInstrument_mirror (i : VoiceId) (x : Option U7) : (s.setVoiceInstrument i x).mirror = s.mirror := rfl
@[simp] theorem State.setVoiceInstrument_out (i : VoiceId) (x : Option U7) : (s.setVoiceInstrument i x).out = s.out := rfl
@[simp] theorem State.setVoiceInstrument_log (i : VoiceId) (x : Option U7) : (s.setVoiceInstrument i x).log = s.log := rfl
@[simp] theorem State.setVoiceInstrument_channel (i : VoiceId) (x : Option U7) (c' : Chan) : (s.setVoiceInstrument i x).channel c' = s.channel c' := rfl
@[simp] theorem State.setVoiceInstrument_mirrorAt (i : VoiceId) (x : Option U7) (r' : Byte) : (s.setVoiceInstrument i x).mirrorAt r' = s.mirrorAt r' := rfl
@[simp] theorem State.setVoiceInstrument_bankAt (i : VoiceId) (x : Option U7) (k' : U7) : (s.setVoiceInstrument i x).bankAt k' = s.bankAt k' := rfl
@[simp] theorem State.setVoiceInstrument_streamByte (i : VoiceId) (x : Option U7) (a' : Nat) : (s.setVoiceInstrument i x).streamByte a' = s.streamByte a' := rfl
@[simp] theorem State.setVoiceInstrument_streamLength (i : VoiceId) (x : Option U7) : (s.setVoiceInstrument i x).streamLength = s.streamLength := rfl
@[simp] theorem State.setVoiceInstrument_remaining (i : VoiceId) (x : Option U7) : (s.setVoiceInstrument i x).remaining = s.remaining := rfl
@[simp] theorem State.setVoiceInstrument_ncMax (i : VoiceId) (x : Option U7) : (s.setVoiceInstrument i x).ncMax = s.ncMax := rfl
@[simp] theorem State.setVoiceInstrument_rawFnum (i : VoiceId) (x : Option U7) (c' : Chan) (n' : U7) : (s.setVoiceInstrument i x).rawFnum c' n' = s.rawFnum c' n' := rfl
@[simp] theorem State.setVoiceInstrument_tickResult (i : VoiceId) (x : Option U7) : (s.setVoiceInstrument i x).tickResult = s.tickResult := rfl

/-! ### freeVoiceAt -/

@[simp] theorem State.freeVoiceAt_cfg (i : VoiceId) : (s.freeVoiceAt i).cfg = s.cfg := rfl
@[simp] theorem State.freeVoiceAt_run (i : VoiceId) : (s.freeVoiceAt i).run = s.run := rfl
@[simp] theorem State.freeVoiceAt_ptr (i : VoiceId) : (s.freeVoiceAt i).ptr = s.ptr := rfl
@[simp] theorem State.freeVoiceAt_rs (i : VoiceId) : (s.freeVoiceAt i).rs = s.rs := rfl
@[simp] theorem State.freeVoiceAt_rhy (i : VoiceId) : (s.freeVoiceAt i).rhy = s.rhy := rfl
@[simp] theorem State.freeVoiceAt_tr (i : VoiceId) : (s.freeVoiceAt i).tr = s.tr := rfl
@[simp] theorem State.freeVoiceAt_nc (i : VoiceId) : (s.freeVoiceAt i).nc = s.nc := rfl
@[simp] theorem State.freeVoiceAt_ch (i : VoiceId) : (s.freeVoiceAt i).ch = s.ch := rfl
@[simp] theorem State.freeVoiceAt_mirror (i : VoiceId) : (s.freeVoiceAt i).mirror = s.mirror := rfl
@[simp] theorem State.freeVoiceAt_out (i : VoiceId) : (s.freeVoiceAt i).out = s.out := rfl
@[simp] theorem State.freeVoiceAt_log (i : VoiceId) : (s.freeVoiceAt i).log = s.log := rfl
@[simp] theorem State.freeVoiceAt_channel (i : VoiceId) (c' : Chan) : (s.freeVoiceAt i).channel c' = s.channel c' := rfl
@[simp] theorem State.freeVoiceAt_mirrorAt (i : VoiceId) (r' : Byte) : (s.freeVoiceAt i).mirrorAt r' = s.mirrorAt r' := rfl
@[simp] theorem State.freeVoiceAt_bankAt (i : VoiceId) (k' : U7) : (s.freeVoiceAt i).bankAt k' = s.bankAt k' := rfl
@[simp] theorem State.freeVoiceAt_streamByte (i : VoiceId) (a' : Nat) : (s.freeVoiceAt i).streamByte a' = s.streamByte a' := rfl
@[simp] theorem State.freeVoiceAt_streamLength (i : VoiceId) : (s.freeVoiceAt i).streamLength = s.streamLength := rfl
@[simp] theorem State.freeVoiceAt_remaining (i : VoiceId) : (s.freeVoiceAt i).remaining = s.remaining := rfl
@[simp] theorem State.freeVoiceAt_ncMax (i : VoiceId) : (s.freeVoiceAt i).ncMax = s.ncMax := rfl
@[simp] theorem State.freeVoiceAt_rawFnum (i : VoiceId) (c' : Chan) (n' : U7) : (s.freeVoiceAt i).rawFnum c' n' = s.rawFnum c' n' := rfl
@[simp] theorem State.freeVoiceAt_tickResult (i : VoiceId) : (s.freeVoiceAt i).tickResult = s.tickResult := rfl

/-! ### stamp -/

@[simp] theorem State.stamp_cfg (i : VoiceId) (n : U7) (c : Chan) : (s.stamp i n c).cfg = s.cfg := rfl
@[simp] theorem State.stamp_run (i : VoiceId) (n : U7) (c : Chan) : (s.stamp i n c).run = s.run := rfl
@[simp] theorem State.stamp_ptr (i : VoiceId) (n : U7) (c : Chan) : (s.stamp i n c).ptr = s.ptr := rfl
@[simp] theorem State.stamp_rs (i : VoiceId) (n : U7) (c : Chan) : (s.stamp i n c).rs = s.rs := rfl
@[simp] theorem State.stamp_rhy (i : VoiceId) (n : U7) (c : Chan) : (s.stamp i n c).rhy = s.rhy := rfl
@[simp] theorem State.stamp_tr (i : VoiceId) (n : U7) (c : Chan) : (s.stamp i n c).tr = s.tr := rfl
@[simp] theorem State.stamp_nc (i : VoiceId) (n : U7) (c : Chan) : (s.stamp i n c).nc = s.nc + 1 := rfl
@[simp] theorem State.stamp_ch (i : VoiceId) (n : U7) (c : Chan) : (s.stamp i n c).ch = s.ch := rfl
@[simp] theorem State.stamp_mirror (i : VoiceId) (n : U7) (c : Chan) : (s.stamp i n c).mirror = s.mirror := rfl
@[simp] theorem State.stamp_out (i : VoiceId) (n : U7) (c : Chan) : (s.stamp i n c).out = s.out := rfl
@[simp] theorem State.stamp_log (i : VoiceId) (n : U7) (c : Chan) : (s.stamp i n c).log = s.log := rfl
@[simp] theorem State.stamp_channel (i : VoiceId) (n : U7) (c : Chan) (c' : Chan) : (s.stamp i n c).channel c' = s.channel c' := rfl
@[simp] theorem State.stamp_mirrorAt (i : VoiceId) (n : U7) (c : Chan) (r' : Byte) : (s.stamp i n c).mirrorAt r' = s.mirrorAt r' := rfl
@[simp] theorem State.stamp_bankAt (i : VoiceId) (n : U7) (c : Chan) (k' : U7) : (s.stamp i n c).bankAt k' = s.bankAt k' := rfl
@[simp] theorem State.stamp_streamByte (i : VoiceId) (n : U7) (c : Chan) (a' : Nat) : (s.stamp i n c).streamByte a' = s.streamByte a' := rfl
@[simp] theorem State.stamp_streamLength (i : VoiceId) (n : U7) (c : Chan) : (s.stamp i n c).streamLength = s.streamLength := rfl
@[simp] theorem State.stamp_remaining (i : VoiceId) (n : U7) (c : Chan) : (s.stamp i n c).remaining = s.remaining := rfl
@[simp] theorem State.stamp_ncMax (i : VoiceId) (n : U7) (c : Chan) : (s.stamp i n c).ncMax = s.ncMax := rfl
@[simp] theorem State.stamp_rawFnum (i : VoiceId) (n : U7) (c : Chan) (c' : Chan) (n' : U7) : (s.stamp i n c).rawFnum c' n' = s.rawFnum c' n' := rfl
@[simp] theorem State.stamp_tickResult (i : VoiceId) (n : U7) (c : Chan) : (s.stamp i n c).tickResult = s.tickResult := rfl

/-! ### warnFreq -/

@[simp] theorem State.warnFreq_cfg (c : Chan) (n : U7) : (s.warnFreq c n).cfg = s.cfg := by unfold State.warnFreq; split <;> rfl
@[simp] theorem State.warnFreq_run (c : Chan) (n : U7) : (s.warnFreq c n).run = s.run := by unfold State.warnFreq; split <;> rfl
@[simp] theorem State.warnFreq_ptr (c : Chan) (n : U7) : (s.warnFreq c n).ptr = s.ptr := by unfold State.warnFreq; split <;> rfl
@[simp] theorem State.warnFreq_rs (c : Chan) (n : U7) : (s.warnFreq c n).rs = s.rs := by unfold State.warnFreq; split <;> rfl
@[simp] theorem State.warnFreq_rhy (c : Chan) (n : U7) : (s.warnFreq c n).rhy = s.rhy := by unfold State.warnFreq; split <;> rfl
@[simp] theorem State.warnFreq_tr (c : Chan) (n : U7) : (s.warnFreq c n).tr = s.tr := by unfold State.warnFreq; split <;> rfl
@[simp] theorem State.warnFreq_nc (c : Chan) (n : U7) : (s.warnFreq c n).nc = s.nc := by unfold State.warnFreq; split <;> rfl
@[simp] theorem State.warnFreq_ch (c : Chan) (n : U7) : (s.warnFreq c n).ch = s.ch := by unfold State.warnFreq; split <;> rfl
@[simp] theorem State.warnFreq_v (c : Chan) (n : U7) : (s.warnFreq c n).v = s.v := by unfold State.warnFreq; split <;> rfl
@[simp] theorem State.warnFreq_mirror (c : Chan) (n : U7) : (s.warnFreq c n).mirror = s.mirror := by unfold State.warnFreq; split <;> rfl
@[simp] theorem State.warnFreq_out (c : Chan) (n : U7) : (s.warnFreq c n).out = s.out := by unfold State.warnFreq; split <;> rfl
@[simp] theorem State.warnFreq_channel (c : Chan) (n : U7) (c' : Chan) : (s.warnFreq c n).channel c' = s.channel c' := by unfold State.warnFreq; split <;> rfl
@[simp] theorem State.warnFreq_voice (c : Chan) (n : U7) (i' : VoiceId) : (s.warnFreq c n).voice i' = s.voice i' := by unfold State.warnFreq; split <;> rfl
@[simp] theorem State.warnFreq_mirrorAt (c : Chan) (n : U7) (r' : Byte) : (s.warnFreq c n).mirrorAt r' = s.mirrorAt r' := by unfold State.warnFreq; split <;> rfl
@[simp] theorem State.warnFreq_bankAt (c : Chan) (n : U7) (k' : U7) : (s.warnFreq c n).bankAt k' = s.bankAt k' := by unfold State.warnFreq; split <;> rfl
@[simp] theorem State.warnFreq_streamByte (c : Chan) (n : U7) (a' : Nat) : (s.warnFreq c n).streamByte a' = s.streamByte a' := by unfold State.warnFreq; split <;> rfl
@[simp] theorem State.warnFreq_streamLength (c : Chan) (n : U7) : (s.warnFreq c n).streamLength = s.streamLength := by unfold State.warnFreq; split <;> rfl
@[simp] theorem State.warnFreq_remaining (c : Chan) (n : U7) : (s.warnFreq c n).remaining = s.remaining := by unfold State.warnFreq; split <;> rfl
@[simp] theorem State.warnFreq_ncMax (c : Chan) (n : U7) : (s.warnFreq c n).ncMax = s.ncMax := by unfold State.warnFreq; split <;> rfl
@[simp] theorem State.warnFreq_rawFnum (c : Chan) (n : U7) (c' : Chan) (n' : U7) : (s.warnFreq c n).rawFnum c' n' = s.rawFnum c' n' := by unfold State.warnFreq; split <;> rfl
@[simp] theorem State.warnFreq_isFree (c : Chan) (n : U7) (i' : VoiceId) : (s.warnFreq c n).isFree i' = s.isFree i' := by unfold State.warnFreq; split <;> rfl
@[simp] theorem State.warnFreq_tickResult (c : Chan) (n : U7) : (s.warnFreq c n).tickResult = s.tickResult := by unfold State.warnFreq; split <;> rfl

/-! ### writeRegs -/

theorem State.writeRegs_frame (ws : List (Byte × Byte)) :
    s.writeRegs ws = { s with
      mirror := (s.writeRegs ws).mirror
      out := s.out ++ ws.map fun w => .write w.1 w.2 } := by
  induction ws generalizing s with
  | nil => simp [State.writeRegs]
  | cons w ws ih =>
    obtain ⟨r, x⟩ := w
    rw [State.writeRegs, ih]
    simp

@[simp] theorem State.writeRegs_cfg (ws : List (Byte × Byte)) : (s.writeRegs ws).cfg = s.cfg := by
  rw [State.writeRegs_frame]
@[simp] theorem State.writeRegs_run (ws : List (Byte × Byte)) : (s.writeRegs ws).run = s.run := by
  rw [State.writeRegs_frame]
@[simp] theorem State.writeRegs_ptr (ws : List (Byte × Byte)) : (s.writeRegs ws).ptr = s.ptr := by
  rw [State.writeRegs_frame]
@[simp] theorem State.writeRegs_rs (ws : List (Byte × Byte)) : (s.writeRegs ws).rs = s.rs := by
  rw [State.writeRegs_frame]
@[simp] theorem State.writeRegs_rhy (ws : List (Byte × Byte)) : (s.writeRegs ws).rhy = s.rhy := by
  rw [State.writeRegs_frame]
@[simp] theorem State.writeRegs_tr (ws : List (Byte × Byte)) : (s.writeRegs ws).tr = s.tr := by
  rw [State.writeRegs_frame]
@[simp] theorem State.writeRegs_nc (ws : List (Byte × Byte)) : (s.writeRegs ws).nc = s.nc := by
  rw [State.writeRegs_frame]
@[simp] theorem State.writeRegs_ch (ws : List (Byte × Byte)) : (s.writeRegs ws).ch = s.ch := by
  rw [State.writeRegs_frame]
@[simp] theorem State.writeRegs_v (ws : List (Byte × Byte)) : (s.writeRegs ws).v = s.v := by
  rw [State.writeRegs_frame]
@[simp] theorem State.writeRegs_log (ws : List (Byte × Byte)) : (s.writeRegs ws).log = s.log := by
  rw [State.writeRegs_frame]
@[simp] theorem State.writeRegs_out (ws : List (Byte × Byte)) :
    (s.writeRegs ws).out = s.out ++ ws.map fun w => .write w.1 w.2 := by
  rw [State.writeRegs_frame]
@[simp] theorem State.writeRegs_channel (ws : List (Byte × Byte)) (c' : Chan) : (s.writeRegs ws).channel c' = s.channel c' := by
  rw [State.writeRegs_frame]; rfl
@[simp] theorem State.writeRegs_voice (ws : List (Byte × Byte)) (i' : VoiceId) : (s.writeRegs ws).voice i' = s.voice i' := by
  rw [State.writeRegs_frame]; rfl
@[simp] theorem State.writeRegs_bankAt (ws : List (Byte × Byte)) (k' : U7) : (s.writeRegs ws).bankAt k' = s.bankAt k' := by
  rw [State.writeRegs_frame]; rfl
@[simp] theorem State.writeRegs_streamByte (ws : List (Byte × Byte)) (a' : Nat) : (s.writeRegs ws).streamByte a' = s.streamByte a' := by
  rw [State.writeRegs_frame]; rfl
@[simp] theorem State.writeRegs_streamLength (ws : List (Byte × Byte)) : (s.writeRegs ws).streamLength = s.streamLength := by
  rw [State.writeRegs_frame]; rfl
@[simp] theorem State.writeRegs_remaining (ws : List (Byte × Byte)) : (s.writeRegs ws).remaining = s.remaining := by
  rw [State.writeRegs_frame]; rfl
@[simp] theorem State.writeRegs_ncMax (ws : List (Byte × Byte)) : (s.writeRegs ws).ncMax = s.ncMax := by
  rw [State.writeRegs_frame]; rfl
@[simp] theorem State.writeRegs_rawFnum (ws : List (Byte × Byte)) (c' : Chan) (n' : U7) : (s.writeRegs ws).rawFnum c' n' = s.rawFnum c' n' := by
  rw [State.writeRegs_frame]; rfl
@[simp] theorem State.writeRegs_isFree (ws : List (Byte × Byte)) (i' : VoiceId) : (s.writeRegs ws).isFree i' = s.isFree i' := by
  rw [State.writeRegs_frame]; rfl
@[simp] theorem State.writeRegs_tickResult (ws : List (Byte × Byte)) : (s.writeRegs ws).tickResult = s.tickResult := by
  rw [State.writeRegs_frame]; rfl

/-! ### warnSteal -/

@[simp] theorem warnSteal_cfg (k : U7) : (warnSteal s k).cfg = s.cfg := by
  unfold warnSteal; split <;> rfl
@[simp] theorem warnSteal_run (k : U7) : (warnSteal s k).run = s.run := by
  unfold warnSteal; split <;> rfl
@[simp] theorem warnSteal_ptr (k : U7) : (warnSteal s k).ptr = s.ptr := by
  unfold warnSteal; split <;> rfl
@[simp] theorem warnSteal_rs (k : U7) : (warnSteal s k).rs = s.rs := by
  unfold warnSteal; split <;> rfl
@[simp] theorem warnSteal_rhy (k : U7) : (warnSteal s k).rhy = s.rhy := by
  unfold warnSteal; split <;> rfl
@[simp] theorem warnSteal_tr (k : U7) : (warnSteal s k).tr = s.tr := by
  unfold warnSteal; split <;> rfl
@[simp] theorem warnSteal_nc (k : U7) : (warnSteal s k).nc = s.nc := by
  unfold warnSteal; split <;> rfl
@[simp] theorem warnSteal_ch (k : U7) : (warnSteal s k).ch = s.ch := by
  unfold warnSteal; split <;> rfl
@[simp] theorem warnSteal_v (k : U7) : (warnSteal s k).v = s.v := by
  unfold warnSteal; split <;> rfl
@[simp] theorem warnSteal_mirror (k : U7) : (warnSteal s k).mirror = s.mirror := by
  unfold warnSteal; split <;> rfl
@[simp] theorem warnSteal_out (k : U7) : (warnSteal s k).out = s.out := by
  unfold warnSteal; split <;> rfl
@[simp] theorem warnSteal_channel (k : U7) (c' : Chan) : (warnSteal s k).channel c' = s.channel c' := by
  unfold warnSteal; split <;> rfl
@[simp] theorem warnSteal_voice (k : U7) (i' : VoiceId) : (warnSteal s k).voice i' = s.voice i' := by
  unfold warnSteal; split <;> rfl
@[simp] theorem warnSteal_mirrorAt (k : U7) (r' : Byte) : (warnSteal s k).mirrorAt r' = s.mirrorAt r' := by
  unfold warnSteal; split <;> rfl
@[simp] theorem warnSteal_bankAt (k : U7) (k' : U7) : (warnSteal s k).bankAt k' = s.bankAt k' := by
  unfold warnSteal; split <;> rfl
@[simp] theorem warnSteal_streamByte (k : U7) (a' : Nat) : (warnSteal s k).streamByte a' = s.streamByte a' := by
  unfold warnSteal; split <;> rfl
@[simp] theorem warnSteal_streamLength (k : U7) : (warnSteal s k).streamLength = s.streamLength := by
  unfold warnSteal; split <;> rfl
@[simp] theorem warnSteal_remaining (k : U7) : (warnSteal s k).remaining = s.remaining := by
  unfold warnSteal; split <;> rfl
@[simp] theorem warnSteal_ncMax (k : U7) : (warnSteal s k).ncMax = s.ncMax := by
  unfold warnSteal; split <;> rfl
@[simp] theorem warnSteal_rawFnum (k : U7) (c' : Chan) (n' : U7) : (warnSteal s k).rawFnum c' n' = s.rawFnum c' n' := by
  unfold warnSteal; split <;> rfl
@[simp] theorem warnSteal_isFree (k : U7) (i' : VoiceId) : (warnSteal s k).isFree i' = s.isFree i' := by
  unfold warnSteal; split <;> rfl
@[simp] theorem warnSteal_tickResult (k : U7) : (warnSteal s k).tickResult = s.tickResult := by
  unfold warnSteal; split <;> rfl

/-! ### The tables -/

@[simp] theorem State.channel_setChannel_same (c : Chan) (x : Channel) :
    (s.setChannel c x).channel c = x := by
  simp [State.channel, State.setChannel]

theorem State.channel_setChannel_other {c c' : Chan} (x : Channel) (h : c' ≠ c) :
    (s.setChannel c x).channel c' = s.channel c' := by
  have h' : c.val ≠ c'.val := fun e => h (Fin.ext e.symm)
  simp [State.channel, State.setChannel, Vector.getElem_set_ne, h']

@[simp] theorem State.voice_setVoice_same (i : VoiceId) (x : Voice) :
    (s.setVoice i x).voice i = x := by
  simp [State.voice, State.setVoice]

theorem State.voice_setVoice_other {i j : VoiceId} (x : Voice) (h : j ≠ i) :
    (s.setVoice i x).voice j = s.voice j := by
  have h' : i.val ≠ j.val := fun e => h (Fin.ext e.symm)
  simp [State.voice, State.setVoice, Vector.getElem_set_ne, h']

theorem State.voice_setVoice (i j : VoiceId) (x : Voice) :
    (s.setVoice i x).voice j = if j = i then x else s.voice j := by
  split
  · next h => subst h; simp
  · next h => exact s.voice_setVoice_other x h

theorem State.voice_setVoiceInstrument (i j : VoiceId) (x : Option U7) :
    (s.setVoiceInstrument i x).voice j =
      if j = i then { s.voice i with instrument := x } else s.voice j := by
  simp [State.setVoiceInstrument, State.voice_setVoice]

theorem State.voice_freeVoiceAt (i j : VoiceId) :
    (s.freeVoiceAt i).voice j =
      if j = i then { s.voice i with noteStart := 0 } else s.voice j := by
  simp [State.freeVoiceAt, State.voice_setVoice]

theorem State.voice_stamp (i j : VoiceId) (n : U7) (c : Chan) :
    (s.stamp i n c).voice j =
      if j = i then ⟨s.nc + 1, some n, some c, (s.voice i).instrument⟩ else s.voice j := by
  unfold State.stamp
  rw [State.voice_setVoice]
  rfl

/-- Two states with equal fields are equal. -/
theorem State.ext_fields {s t : State} (hcfg : t.cfg = s.cfg) (hrun : t.run = s.run)
    (hptr : t.ptr = s.ptr) (hrs : t.rs = s.rs) (hrhy : t.rhy = s.rhy) (htr : t.tr = s.tr)
    (hnc : t.nc = s.nc) (hch : t.ch = s.ch) (hv : t.v = s.v) (hmirror : t.mirror = s.mirror)
    (hout : t.out = s.out) (hlog : t.log = s.log) : t = s := by
  cases s; cases t; simp_all

end Sys2Proof.Machine
end

