-- ==== Sys2Proof/Laws/Ops.lean ====
section
/-! SUPPORT. What the shared operations over the mirror and the stream can do, said once each. -/

namespace Sys2Proof.Machine

/-! ### The register mirror -/

/-- WriteReg: the written register reads the written value, every other as before. -/
theorem State.mirrorAt_writeReg {s : State} (h : Memory.wf s.mirror) (r x r' : Byte) :
    (s.writeReg r x).mirrorAt r' = if r' = r then x else s.mirrorAt r' := by
  unfold State.mirrorAt
  rw [State.writeReg_mirror, Memory.read_write h]
  by_cases hr : r' = r
  · simp [hr]
  · have : r'.toNat ≠ r.toNat := fun e => hr (BitVec.eq_of_toNat_eq e)
    simp [hr, this]

theorem State.writeReg_wf {s : State} (h : Memory.wf s.mirror) (r x : Byte) :
    Memory.wf (s.writeReg r x).mirror := Memory.write_wf h r.toNat x

theorem State.writeRegs_wf {s : State} (h : Memory.wf s.mirror) (ws : List (Byte × Byte)) :
    Memory.wf (s.writeRegs ws).mirror := by
  induction ws generalizing s with
  | nil => exact h
  | cons w ws ih => exact ih (State.writeReg_wf h w.1 w.2)

/-- A register in none of the writes reads as before. -/
theorem State.mirrorAt_writeRegs_other {s : State} (h : Memory.wf s.mirror) (ws : List (Byte × Byte))
    (r : Byte) (hr : ∀ w ∈ ws, w.1 ≠ r) : (s.writeRegs ws).mirrorAt r = s.mirrorAt r := by
  induction ws generalizing s with
  | nil => rfl
  | cons w ws ih =>
    obtain ⟨a, x⟩ := w
    rw [State.writeRegs, ih (State.writeReg_wf h a x) fun w hw => hr w (by simp [hw]),
      State.mirrorAt_writeReg h]
    have : ¬ r = a := fun e => hr (a, x) (by simp) e.symm
    simp [this]

theorem State.writeRegs_append (s : State) (ws ws' : List (Byte × Byte)) :
    s.writeRegs (ws ++ ws') = (s.writeRegs ws).writeRegs ws' := by
  induction ws generalizing s with
  | nil => rfl
  | cons w ws ih => exact ih (s.writeReg w.1 w.2)

/-- The last of the writes to a register, else the value it held. -/
theorem State.mirrorAt_writeRegs {s : State} (h : Memory.wf s.mirror) (ws : List (Byte × Byte)) (r : Byte) :
    (s.writeRegs ws).mirrorAt r = ws.foldl (fun x w => if w.1 = r then w.2 else x) (s.mirrorAt r) := by
  induction ws generalizing s with
  | nil => rfl
  | cons w ws ih =>
    rw [State.writeRegs, ih (State.writeReg_wf h w.1 w.2), State.mirrorAt_writeReg h, List.foldl_cons]
    simp only [eq_comm]

/-- A written register holds the last value the writes' items carry for it. -/
theorem State.mirrorAt_writeRegs_mem {s : State} (h : Memory.wf s.mirror) (ws : List (Byte × Byte)) (r : Byte)
    (hr : ∃ w ∈ ws, w.1 = r) : (s.writeRegs ws).mirrorAt r = lastWritten r (writeItems ws) := by
  have hfold : ∀ (ws : List (Byte × Byte)) (x y : Byte), (∃ w ∈ ws, w.1 = r) →
      ws.foldl (fun x w => if w.1 = r then w.2 else x) x =
        ws.foldl (fun x w => if w.1 = r then w.2 else x) y := by
    intro ws
    induction ws with
    | nil => rintro x y ⟨w, hw, -⟩; cases hw
    | cons w ws ih =>
      intro x y hm
      simp only [List.foldl_cons]
      by_cases he : w.1 = r
      · simp [he]
      · simp only [he, if_false]
        refine ih x y ?_
        obtain ⟨u, hu, hk⟩ := hm
        rcases List.mem_cons.mp hu with rfl | hu
        · exact absurd hk he
        · exact ⟨u, hu, hk⟩
  rw [State.mirrorAt_writeRegs h, hfold ws _ 0x00 hr]
  simp [lastWritten, writeItems, List.foldl_map]

/-! ### The stream -/

theorem State.remaining_eq_nil_iff (s : State) : s.remaining = [] ↔ s.streamLength ≤ s.ptr := by
  simp [State.remaining, Nat.sub_eq_zero_iff_le]

/-- Below L, the first remaining byte is M[PTR] and the rest remain after it. -/
theorem State.remaining_eq_cons (s : State) (h : s.ptr < s.streamLength) :
    s.remaining = s.streamByte s.ptr :: (s.advance 1).remaining := by
  have hlen : s.streamLength - s.ptr = (s.streamLength - (s.ptr + 1)) + 1 := by omega
  unfold State.remaining
  rw [hlen, List.range'_succ]
  simp [State.streamByte, State.streamLength, State.advance]

theorem State.remaining_length (s : State) : s.remaining.length = s.streamLength - s.ptr := by
  simp [State.remaining]

/-- Reading `n` bytes leaves the others. -/
theorem State.remaining_advance (s : State) (n : Nat) :
    (s.advance n).remaining = s.remaining.drop n := by
  unfold State.remaining
  rw [← List.map_drop, List.drop_range']
  have h1 : (s.advance n).streamLength - (s.advance n).ptr = s.streamLength - s.ptr - n := by
    simp; omega
  rw [h1]
  simp [State.streamByte]

theorem State.remaining_setRs (s : State) (b : Byte) : (s.setRs b).remaining = s.remaining := rfl

/-- After the stream of a list of bytes is reset, all of them remain. -/
theorem State.initial_remaining (cfg : Config) (bytes : List Byte)
    (h : cfg.music = musicOfBytes bytes) : (State.initial cfg).remaining = bytes := by
  apply List.ext_getElem
  · simp [State.remaining, State.initial, State.streamLength, h, musicOfBytes]
  · intro i h1 h2
    have hb : (State.initial cfg).streamByte i = bytes[i] := by
      have := musicOfBytes_read bytes i
      simp only [State.streamByte, State.initial, h, this]
      simp [h2]
    simpa [State.remaining, State.initial] using hb

end Sys2Proof.Machine
end

