-- ==== Sys2Proof/Laws/Allocator.lean ====
section
/-! SUPPORT. What the allocator's shared operations can do, said once each: the registers they write, the
voices they choose and change. -/

namespace Sys2Proof.Machine

/-! ### Registers -/

theorem operatorWrites_mod_ordinary (v : VoiceId) (op : Operator) :
    ∀ w ∈ operatorWrites (opOffset v) op, writable w.1 = true ∧ w.1 ≠ regBD := by
  have h : ∀ v : VoiceId, ∀ r ∈ [reg20 (opOffset v), reg40 (opOffset v), reg60 (opOffset v),
      reg80 (opOffset v), regE0 (opOffset v)], writable r = true ∧ r ≠ regBD := by decide
  intro w hw
  exact h v w.1 (by
    simp only [operatorWrites, List.mem_cons, List.not_mem_nil, or_false] at hw ⊢
    rcases hw with rfl | rfl | rfl | rfl | rfl <;> simp)

theorem operatorWrites_car_ordinary (v : VoiceId) (op : Operator) :
    ∀ w ∈ operatorWrites (carOffset v) op, writable w.1 = true ∧ w.1 ≠ regBD := by
  have h : ∀ v : VoiceId, ∀ r ∈ [reg20 (carOffset v), reg40 (carOffset v), reg60 (carOffset v),
      reg80 (carOffset v), regE0 (carOffset v)], writable r = true ∧ r ≠ regBD := by decide
  intro w hw
  exact h v w.1 (by
    simp only [operatorWrites, List.mem_cons, List.not_mem_nil, or_false] at hw ⊢
    rcases hw with rfl | rfl | rfl | rfl | rfl <;> simp)

theorem voiceRegs_ordinary : ∀ v : VoiceId, ∀ r ∈ [regA0 v, regB0 v, regC0 v],
    writable r = true ∧ r ≠ regBD := by decide

theorem bindWrites_ordinary (v : VoiceId) (i : Instrument) :
    ∀ w ∈ bindWrites v i, writable w.1 = true ∧ w.1 ≠ regBD := by
  intro w hw
  simp only [bindWrites, List.mem_append, List.mem_singleton] at hw
  rcases hw with (hw | hw) | rfl
  · exact operatorWrites_mod_ordinary v i.mod w hw
  · exact operatorWrites_car_ordinary v i.car w hw
  · exact voiceRegs_ordinary v (regC0 v) (by simp)

theorem percBindWrites_ordinary (p : PercSource) (d : Drum) (i : Instrument) :
    ∀ w ∈ percBindWrites p d i, writable w.1 = true ∧ w.1 ≠ regBD := by
  cases d
  · exact bindWrites_ordinary 6 i
  · exact operatorWrites_car_ordinary 7 _
  · exact operatorWrites_mod_ordinary 8 _
  · exact operatorWrites_car_ordinary 8 _
  · exact operatorWrites_mod_ordinary 7 _

theorem freqWrites_ordinary (p : BlockPacking) (v : VoiceId) (blk fn : Nat) (key : Bool) :
    ∀ w ∈ freqWrites p v blk fn key, writable w.1 = true ∧ w.1 ≠ regBD := by
  intro w hw
  simp only [freqWrites, List.mem_cons, List.not_mem_nil, or_false] at hw
  rcases hw with rfl | rfl
  · exact voiceRegs_ordinary v (regA0 v) (by simp)
  · exact voiceRegs_ordinary v (regB0 v) (by simp)

theorem reg53_ordinary : writable reg53 = true ∧ reg53 ≠ regBD := by decide

theorem regBD_writable : writable regBD = true := by decide

/-- No operator's binding registers are frequency or connection registers of any voice. -/
theorem operatorWrites_apart (v u : VoiceId) (op : Operator) (car : Bool) :
    ∀ w ∈ operatorWrites (if car then carOffset v else opOffset v) op,
      w.1 ≠ regA0 u ∧ w.1 ≠ regB0 u ∧ w.1 ≠ regC0 u := by
  have h : ∀ (v u : VoiceId) (car : Bool),
      ∀ r ∈ [reg20 (if car then carOffset v else opOffset v),
        reg40 (if car then carOffset v else opOffset v),
        reg60 (if car then carOffset v else opOffset v),
        reg80 (if car then carOffset v else opOffset v),
        regE0 (if car then carOffset v else opOffset v)],
        r ≠ regA0 u ∧ r ≠ regB0 u ∧ r ≠ regC0 u := by decide
  intro w hw
  exact h v u car w.1 (by
    simp only [operatorWrites, List.mem_cons, List.not_mem_nil, or_false] at hw ⊢
    rcases hw with rfl | rfl | rfl | rfl | rfl <;> simp)

/-- The frequency and connection registers of different voices, and 0xBD, differ. -/
theorem voiceRegs_apart : ∀ v u : VoiceId,
    regA0 v ≠ regB0 u ∧ regA0 v ≠ regC0 u ∧ regB0 v ≠ regC0 u ∧
    (v ≠ u → regA0 v ≠ regA0 u ∧ regB0 v ≠ regB0 u ∧ regC0 v ≠ regC0 u) := by decide

/-! ### Choosing a voice -/

/-- Every melodic voice, and no other, is below N. -/
theorem mem_melodicVoices (rhy : Bool) (i : VoiceId) :
    i ∈ melodicVoices rhy ↔ i.val < melodicCount rhy := by
  revert i; cases rhy <;> decide

/-- What the free-voice scan answers is its candidate or a free voice of the list. -/
theorem scanFree_mem (s : State) (k : U7) (l : List VoiceId) (cand : Option VoiceId) {i : VoiceId}
    (h : scanFree s k l cand = some i) : cand = some i ∨ (i ∈ l ∧ s.isFree i = true) := by
  induction l generalizing cand with
  | nil => exact .inl h
  | cons j l ih =>
    unfold scanFree at h
    split at h
    · next hf =>
      split at h
      · cases h; exact .inr ⟨by simp, hf⟩
      · rcases ih _ h with h' | ⟨h', hf'⟩
        · cases h'; exact .inr ⟨by simp, hf⟩
        · exact .inr ⟨by simp [h'], hf'⟩
    · rcases ih _ h with h' | ⟨h', hf'⟩
      · exact .inl h'
      · exact .inr ⟨by simp [h'], hf'⟩

/-- The scan answers none exactly where it has no candidate and no listed voice is free. -/
theorem scanFree_eq_none (s : State) (k : U7) (l : List VoiceId) (cand : Option VoiceId) :
    scanFree s k l cand = none ↔ cand = none ∧ ∀ i ∈ l, s.isFree i = false := by
  induction l generalizing cand with
  | nil => simp [scanFree]
  | cons j l ih =>
    unfold scanFree
    by_cases hf : s.isFree j = true
    · by_cases hi : (s.voice j).instrument = some k <;> simp [hf, hi, ih]
    · simp only [Bool.not_eq_true] at hf
      simp [hf, ih]

/-- The stolen voice is a listed one or the first guess. -/
theorem oldestFrom_mem (s : State) (best : VoiceId) (l : List VoiceId) :
    oldestFrom s best l = best ∨ oldestFrom s best l ∈ l := by
  induction l generalizing best with
  | nil => exact .inl rfl
  | cons j l ih =>
    unfold oldestFrom
    split
    · rcases ih j with h | h
      · exact .inr (by simp [h])
      · exact .inr (by simp [h])
    · rcases ih best with h | h
      · exact .inl h
      · exact .inr (by simp [h])

theorem freeVoice_mem {s : State} {k : U7} {i : VoiceId} (h : freeVoice s k = some i) :
    i.val < melodicCount s.rhy ∧ s.isFree i = true := by
  rcases scanFree_mem s k _ none h with h' | ⟨h', hf⟩
  · cases h'
  · exact ⟨(mem_melodicVoices s.rhy i).mp (by simpa using h'), hf⟩

theorem freeVoice_eq_none (s : State) (k : U7) :
    freeVoice s k = none ↔ ∀ i : VoiceId, i.val < melodicCount s.rhy → s.isFree i = false := by
  unfold freeVoice
  rw [scanFree_eq_none]
  simp [mem_melodicVoices]

/-- FindVoice always gives a melodic voice. -/
theorem findVoice_lt (s : State) (k : U7) : (findVoice s k).val < melodicCount s.rhy := by
  unfold findVoice
  cases h : freeVoice s k with
  | some i => exact (freeVoice_mem h).1
  | none =>
    rcases oldestFrom_mem s 0 (melodicVoices s.rhy) with h' | h'
    · rw [Option.getD_none, stolenVoice, h']
      cases s.rhy <;> decide
    · exact (mem_melodicVoices s.rhy _).mp h'

/-- FindVoice reads the voice table and RHY only. -/
theorem findVoice_congr {s t : State} (hv : t.v = s.v) (hr : t.rhy = s.rhy) (k : U7) :
    findVoice t k = findVoice s k := by
  have hvoice : ∀ i, t.voice i = s.voice i := fun i => by simp [State.voice, hv]
  have hfree : ∀ i, t.isFree i = s.isFree i := fun i => by simp [State.isFree, hvoice]
  have hscan : ∀ l cand, scanFree t k l cand = scanFree s k l cand := by
    intro l
    induction l with
    | nil => intro cand; rfl
    | cons j l ih => intro cand; simp [scanFree, hfree, hvoice, ih]
  have hold : ∀ l best, oldestFrom t best l = oldestFrom s best l := by
    intro l
    induction l with
    | nil => intro best; rfl
    | cons j l ih => intro best; simp [oldestFrom, hvoice, ih]
  simp [findVoice, freeVoice, stolenVoice, hr, hscan, hold]

/-! ### Binding -/

section
variable (v : VoiceId) (k : U7) (s : State)

/-- Binding changes the mirror, the output and the voice's instrument only. -/
theorem bindMel_frame :
    bindMel v k s = { s with
      v := (bindMel v k s).v
      mirror := (s.writeRegs (bindWrites v (s.bankAt k))).mirror
      out := s.out ++ writeItems (bindWrites v (s.bankAt k)) } := by
  apply State.ext_fields <;> simp [bindMel, writeItems]

theorem bindMel_voice (j : VoiceId) :
    (bindMel v k s).voice j =
      if j = v then { s.voice v with instrument := some k } else s.voice j := by
  simp [bindMel, State.voice_setVoiceInstrument]

/-- Binding a drum changes the mirror, the output and the voice's instrument only. -/
theorem bindPerc_frame (d : Drum) :
    bindPerc d k s = { s with
      v := (bindPerc d k s).v
      mirror := (s.writeRegs (percBindWrites s.cfg.percSource d (s.bankAt k))).mirror
      out := s.out ++ writeItems (percBindWrites s.cfg.percSource d (s.bankAt k)) } := by
  apply State.ext_fields <;> simp [bindPerc, writeItems]

theorem bindPerc_voice (d : Drum) (j : VoiceId) :
    (bindPerc d k s).voice j =
      if j = d.voice then { s.voice d.voice with instrument := none } else s.voice j := by
  simp [bindPerc, State.voice_setVoiceInstrument]

/-- After a rebind the voice holds slot `k`; the other fields of the voices are as before. -/
theorem rebind_voice (j : VoiceId) :
    (rebind v k s).voice j =
      if j = v then { s.voice v with instrument := some k } else s.voice j := by
  unfold rebind
  split
  · next h =>
    split
    · next hj => subst hj; rw [← h]
    · rfl
  · exact bindMel_voice v k s j

/-- A rebind makes no writes where the voice already holds slot `k`, else the eleven of binding. -/
theorem rebind_frame :
    rebind v k s = { s with
      v := (rebind v k s).v
      mirror := (s.writeRegs
        (if (s.voice v).instrument = some k then [] else bindWrites v (s.bankAt k))).mirror
      out := s.out ++ writeItems
        (if (s.voice v).instrument = some k then [] else bindWrites v (s.bankAt k)) } := by
  unfold rebind
  split
  · simp [State.writeRegs, writeItems]
  · conv_lhs => rw [bindMel_frame]
end

end Sys2Proof.Machine
end

