-- ==== Sys2Proof/Laws/Legal.lean ====
section
/-! SUPPORT. Each shared operation keeps a state legal: one lemma per operation, which later proofs about
instructions and ticks cite. -/

namespace Sys2Proof.Machine

/-- A change of RUN, the ports and the channel table keeps a legal state legal. -/
theorem LegalState.of_core {s t : State} (h : LegalState s) (hcfg : t.cfg = s.cfg)
    (hptr : t.ptr ≤ s.streamLength) (hrs : t.rs = 0 ∨ t.rs.msb = true) (hrhy : t.rhy = s.rhy)
    (htr : t.tr = s.tr) (hnc : t.nc = s.nc) (hv : ∀ i, (t.voice i).noteStart = (s.voice i).noteStart)
    (hm : t.mirror = s.mirror) : LegalState t where
  mirrorCanonical := hm ▸ h.mirrorCanonical
  mirrorFootprint r hr := by
    have := h.mirrorFootprint r hr
    simpa [State.mirrorAt, hm] using this
  rhythmMirrored := by
    have := h.rhythmMirrored
    simpa [State.mirrorAt, hm, hrhy] using this
  stampsBounded i := by rw [hv, hnc]; exact h.stampsBounded i
  stampsDistinct i j hij := by rw [hv, hv]; exact h.stampsDistinct i j hij
  counterFits := by rw [hnc, hcfg]; exact h.counterFits
  transposeRange := by rw [htr]; exact h.transposeRange
  pointerRange := by simpa [State.streamLength, hcfg] using hptr
  statusStored := hrs

theorem LegalState.warn {s : State} (h : LegalState s) (e : LogEntry) : LegalState (s.warn e) :=
  h.of_core rfl h.pointerRange h.statusStored rfl rfl rfl (fun _ => rfl) rfl

theorem LegalState.emitDelay {s : State} (h : LegalState s) (ms : BitVec 16) :
    LegalState (s.emitDelay ms) :=
  h.of_core rfl h.pointerRange h.statusStored rfl rfl rfl (fun _ => rfl) rfl

theorem LegalState.raiseFault {s : State} (h : LegalState s) (c : FaultCode) :
    LegalState (s.raiseFault c) :=
  h.of_core rfl h.pointerRange h.statusStored rfl rfl rfl (fun _ => rfl) rfl

theorem LegalState.terminate {s : State} (h : LegalState s) (r : EndReason) :
    LegalState (s.terminate r) :=
  h.of_core (by simp) (by simpa using h.pointerRange) (by simpa using h.statusStored) (by simp)
    (by simp) (by simp) (by simp) (by simp)

theorem LegalState.setChannel {s : State} (h : LegalState s) (c : Chan) (x : Channel) :
    LegalState (s.setChannel c x) :=
  h.of_core rfl h.pointerRange h.statusStored rfl rfl rfl (fun _ => rfl) rfl

theorem LegalState.rewind {s : State} (h : LegalState s) : LegalState s.rewind :=
  h.of_core rfl (by have := h.pointerRange; simp; omega) h.statusStored rfl rfl rfl (fun _ => rfl) rfl

theorem LegalState.advance {s : State} (h : LegalState s) (n : Nat) (hn : n ≤ s.remaining.length) :
    LegalState (s.advance n) := by
  have hp := h.pointerRange
  rw [State.remaining_length] at hn
  exact h.of_core rfl (by simp; omega) h.statusStored rfl rfl rfl (fun _ => rfl) rfl

theorem LegalState.setRs {s : State} (h : LegalState s) (b : Byte) (hb : b.msb = true) :
    LegalState (s.setRs b) :=
  h.of_core rfl h.pointerRange (.inr hb) rfl rfl rfl (fun _ => rfl) rfl

theorem LegalState.setVoiceInstrument {s : State} (h : LegalState s) (i : VoiceId) (x : Option U7) :
    LegalState (s.setVoiceInstrument i x) := by
  refine h.of_core rfl h.pointerRange h.statusStored rfl rfl rfl (fun j => ?_) rfl
  rw [State.voice_setVoiceInstrument]
  split
  · next hj => rw [hj]
  · rfl

theorem LegalState.setTranspose {s : State} (h : LegalState s) (t : Int) (ht : -127 ≤ t ∧ t ≤ 127) :
    LegalState (s.setTranspose t) where
  mirrorCanonical := h.mirrorCanonical
  mirrorFootprint := h.mirrorFootprint
  rhythmMirrored := h.rhythmMirrored
  stampsBounded := h.stampsBounded
  stampsDistinct := h.stampsDistinct
  counterFits := h.counterFits
  transposeRange := ht
  pointerRange := h.pointerRange
  statusStored := h.statusStored

/-- Freeing a voice keeps the stamps bounded and distinct. -/
theorem LegalState.freeVoiceAt {s : State} (h : LegalState s) (i : VoiceId) :
    LegalState (s.freeVoiceAt i) where
  mirrorCanonical := h.mirrorCanonical
  mirrorFootprint := h.mirrorFootprint
  rhythmMirrored := h.rhythmMirrored
  stampsBounded j := by
    rw [State.voice_freeVoiceAt]
    split
    · exact Nat.zero_le _
    · exact h.stampsBounded j
  stampsDistinct j k hjk := by
    rw [State.voice_freeVoiceAt, State.voice_freeVoiceAt]
    split
    · intro h0; exact absurd rfl h0
    · split
      · intro h0 h1; exact h0 h1
      · exact h.stampsDistinct j k hjk
  counterFits := h.counterFits
  transposeRange := h.transposeRange
  pointerRange := h.pointerRange
  statusStored := h.statusStored

/-- A stamp is a fresh counter value, so it stays bounded and distinct from the others. -/
theorem LegalState.stamp {s : State} (h : LegalState s) (i : VoiceId) (n : U7) (c : Chan)
    (hnc : s.nc ≠ s.ncMax) : LegalState (s.stamp i n c) where
  mirrorCanonical := h.mirrorCanonical
  mirrorFootprint := h.mirrorFootprint
  rhythmMirrored := h.rhythmMirrored
  stampsBounded j := by
    rw [State.voice_stamp, State.stamp_nc]
    split
    · exact le_refl _
    · have := h.stampsBounded j; omega
  stampsDistinct j k hjk := by
    have hj := h.stampsBounded j
    have hk := h.stampsBounded k
    have hd := h.stampsDistinct j k hjk
    rw [State.voice_stamp, State.voice_stamp]
    by_cases h1 : j = i
    · by_cases h2 : k = i
      · exact absurd (h1.trans h2.symm) hjk
      · simp only [h1, h2, if_true, if_false]; intro _; omega
    · by_cases h2 : k = i
      · simp only [h1, h2, if_true, if_false]; intro _; omega
      · simpa only [h1, h2, if_false] using hd
  counterFits := by
    have := h.counterFits
    simp only [State.ncMax] at hnc
    simp only [State.stamp_nc, State.stamp_cfg]
    omega
  transposeRange := h.transposeRange
  pointerRange := h.pointerRange
  statusStored := h.statusStored

/-- A register write keeps a state legal where the register is one the engine writes and a write of 0xBD
keeps its bit 5 equal to RHY. -/
theorem LegalState.writeReg {s : State} (h : LegalState s) (r x : Byte) (hr : writable r = true)
    (hx : r = regBD → x.getLsbD 5 = s.rhy) : LegalState (s.writeReg r x) where
  mirrorCanonical := State.writeReg_wf h.mirrorCanonical r x
  mirrorFootprint q hq := by
    rw [State.mirrorAt_writeReg h.mirrorCanonical]
    split
    · next e => rw [e, hr] at hq; cases hq
    · exact h.mirrorFootprint q hq
  rhythmMirrored := by
    rw [State.mirrorAt_writeReg h.mirrorCanonical, State.writeReg_rhy]
    split
    · next e => exact (hx e.symm).symm
    · exact h.rhythmMirrored
  stampsBounded := h.stampsBounded
  stampsDistinct := h.stampsDistinct
  counterFits := h.counterFits
  transposeRange := h.transposeRange
  pointerRange := h.pointerRange
  statusStored := h.statusStored

/-- Register writes that leave 0xBD alone keep a state legal. -/
theorem LegalState.writeRegs {s : State} (h : LegalState s) (ws : List (Byte × Byte))
    (hw : ∀ w ∈ ws, writable w.1 = true ∧ w.1 ≠ regBD) : LegalState (s.writeRegs ws) := by
  induction ws generalizing s with
  | nil => exact h
  | cons w ws ih =>
    have h1 := hw w (by simp)
    exact ih (h.writeReg w.1 w.2 h1.1 fun e => absurd e h1.2) fun w' hw' => hw w' (by simp [hw'])

theorem LegalState.clearDrum {s : State} (h : LegalState s) (d : Drum) : LegalState (clearDrum d s) := by
  refine h.writeReg regBD _ regBD_writable fun _ => ?_
  have hb : d.bit[5] = false := by cases d <;> rfl
  rw [h.rhythmMirrored]
  simp [clearBits, hb]

theorem LegalState.setDrum {s : State} (h : LegalState s) (d : Drum) : LegalState (setDrum d s) := by
  refine h.writeReg regBD _ regBD_writable fun _ => ?_
  have hb : d.bit[5] = false := by cases d <;> rfl
  rw [h.rhythmMirrored]
  simp [setBits, hb]

theorem LegalState.warnFreq {s : State} (h : LegalState s) (c : Chan) (n : U7) :
    LegalState (s.warnFreq c n) := by
  unfold State.warnFreq
  split
  · exact h.warn _
  · exact h

theorem LegalState.warnSteal {s : State} (h : LegalState s) (k : U7) : LegalState (warnSteal s k) := by
  unfold Sys2Proof.Machine.warnSteal
  split
  · exact h
  · exact h.warn _

theorem LegalState.bindMel {s : State} (h : LegalState s) (v : VoiceId) (k : U7) :
    LegalState (bindMel v k s) :=
  (h.writeRegs _ (bindWrites_ordinary v _)).setVoiceInstrument v _

theorem LegalState.bindPerc {s : State} (h : LegalState s) (d : Drum) (k : U7) :
    LegalState (bindPerc d k s) :=
  (h.writeRegs _ (percBindWrites_ordinary _ d _)).setVoiceInstrument d.voice _

theorem LegalState.rebind {s : State} (h : LegalState s) (v : VoiceId) (k : U7) :
    LegalState (rebind v k s) := by
  unfold Sys2Proof.Machine.rebind
  split
  · exact h
  · exact h.bindMel v k

theorem LegalState.writeLevel {s : State} (h : LegalState s) (d : Drum) (vel : U7) :
    LegalState (writeLevel d vel s) := by
  cases d
  · exact h.writeReg reg53 _ reg53_ordinary.1 fun e => absurd e reg53_ordinary.2
  all_goals exact h

end Sys2Proof.Machine
end

