-- ==== Sys2Proof/Laws/Reader.lean ====
section
/-! SUPPORT. What the decoder can answer, and how the parts of a tick move PTR. -/

namespace Sys2Proof

/-- A delta time that is read takes at least one byte and no more than there are. -/
theorem decodeVlqFrom_used {fuel v used : Nat} {bytes : List Byte} {w n : Nat}
    (h : decodeVlqFrom fuel v used bytes = .value w n) :
    used ≤ n ∧ n ≤ used + bytes.length ∧ (0 < fuel → used < n) := by
  induction fuel generalizing v used bytes with
  | zero =>
    simp only [decodeVlqFrom, VlqRead.value.injEq] at h
    omega
  | succ fuel ih =>
    cases bytes with
    | nil => simp [decodeVlqFrom] at h
    | cons x xs =>
      simp only [decodeVlqFrom] at h
      split at h
      · have := ih h
        simp only [List.length_cons]
        omega
      · simp only [VlqRead.value.injEq] at h
        simp only [List.length_cons]
        omega

/-- Where the stream ends inside a delta time, every byte has been read. -/
theorem decodeVlqFrom_truncated {fuel v used : Nat} {bytes : List Byte} {n : Nat}
    (h : decodeVlqFrom fuel v used bytes = .truncated n) : n = used + bytes.length := by
  induction fuel generalizing v used bytes with
  | zero => simp [decodeVlqFrom] at h
  | succ fuel ih =>
    cases bytes with
    | nil => simp only [decodeVlqFrom, VlqRead.truncated.injEq] at h; simp [h]
    | cons x xs =>
      simp only [decodeVlqFrom] at h
      split at h
      · have := ih h
        simp only [List.length_cons]
        omega
      · cases h

theorem decodeVlq_used {bytes : List Byte} {v n : Nat} (h : decodeVlq bytes = .value v n) :
    1 ≤ n ∧ n ≤ bytes.length := by
  have := decodeVlqFrom_used h
  omega

theorem decodeVlq_truncated {bytes : List Byte} {n : Nat} (h : decodeVlq bytes = .truncated n) :
    n = bytes.length := by
  have := decodeVlqFrom_truncated h
  omega

theorem sysexScan_length {rest : List Byte} {p : List U7} {q : U7}
    (h : sysexScan rest = some (p, q)) : p.length + 1 ≤ rest.length := by
  induction rest generalizing p q with
  | nil => cases h
  | cons x xs ih =>
    unfold sysexScan at h
    split at h
    · cases h; simp
    · simp only [Option.map_eq_some_iff] at h
      obtain ⟨⟨p', q'⟩, hp, he⟩ := h
      cases he
      have := ih hp
      simp only [List.length_cons]
      omega

/-- How many bytes a decoding says were read. -/
def Decoded.used : Decoded → Nat
  | .instr _ n => n
  | .truncated n => n
  | .badDataByte n => n
  | .noStatus => 0

theorem dataByte1_used (mk : U7 → Instr) (rest : List Byte) :
    (dataByte1 mk rest).used ≤ rest.length := by
  rcases rest with _ | ⟨d, rest⟩
  · simp [dataByte1, Decoded.used]
  · by_cases h : d.msb = true <;> simp [dataByte1, Decoded.used, h]

theorem dataByte2_used (mk : U7 → U7 → Instr) (rest : List Byte) :
    (dataByte2 mk rest).used ≤ rest.length := by
  rcases rest with _ | ⟨d1, _ | ⟨d2, rest⟩⟩
  · simp [dataByte2, Decoded.used]
  · by_cases h : d1.msb = true <;> simp [dataByte2, Decoded.used, h]
  · by_cases h1 : d1.msb = true <;> by_cases h2 : d2.msb = true <;>
      simp [dataByte2, Decoded.used, h1, h2]

theorem rawByte1_used (mk : Byte → Instr) (rest : List Byte) :
    (rawByte1 mk rest).used ≤ rest.length := by
  rcases rest with _ | ⟨d, rest⟩ <;> simp [rawByte1, Decoded.used]

theorem rawByte2_used (mk : Byte → Byte → Instr) (rest : List Byte) :
    (rawByte2 mk rest).used ≤ rest.length := by
  rcases rest with _ | ⟨d1, _ | ⟨d2, rest⟩⟩ <;> simp [rawByte2, Decoded.used]

theorem decodeSystem_used (low : Nat) (rest : List Byte) :
    (decodeSystem low rest).used ≤ rest.length := by
  unfold decodeSystem
  split
  · unfold decodeSysex
    split
    · next p q h => exact sysexScan_length h
    · exact le_refl _
  all_goals
    first
    | exact rawByte1_used _ _
    | exact rawByte2_used _ _
    | exact Nat.zero_le _

/-- A message never reads past the stream. -/
theorem decodeBody_used (st : Byte) (rest : List Byte) :
    (decodeBody st rest).used ≤ rest.length := by
  unfold decodeBody
  split
  all_goals
    first
    | exact dataByte2_used _ _
    | exact dataByte1_used _ _
    | exact decodeSystem_used _ _
    | exact Nat.zero_le _

end Sys2Proof
end

