-- ==== Sys2Proof/Laws/Exec.lean ====
section
/-! SUPPORT. What the parts of a tick, the note operations and the search can do, said once each. -/

namespace Sys2Proof.Machine

/-! ### The tick -/

/-- A tick of a running engine that may run is one event. -/
theorem step_running {s : State} (hr : s.run = .running) (ht : s.cfg.tps ≠ 0) :
    step s = readEvent s := by
  simp only [step, tick, hr, ne_eq, not_true_eq_false, if_false, ht]

theorem step_stopped {s : State} (hr : s.run ≠ .running) : step s = .next s := by
  simp [step, tick, hr]

/-- What a part that answered a next state goes on with. -/
theorem andThen_eq_next {o : Outcome} {k : State → Outcome} {t : State} :
    andThen o k = .next t ↔
      ∃ s, o = .next s ∧ ((s.run = .running ∧ k s = .next t) ∨ (s.run ≠ .running ∧ t = s)) := by
  cases o with
  | next s =>
    by_cases h : s.run = .running
    · simp [andThen, h]
    · simp only [andThen, h, if_false]
      constructor
      · intro e
        cases e
        exact ⟨_, rfl, .inr ⟨h, rfl⟩⟩
      · rintro ⟨u, hu, ⟨hr, -⟩ | ⟨-, rfl⟩⟩
        · cases hu
          exact absurd hr h
        · exact hu
  | fault f => simp [andThen]
  | refused r => simp [andThen]

/-- Every instruction answers a next state where TPS is not 0. -/
theorem exec_answers_next (i : Instr) (s : State) (h : s.cfg.tps ≠ 0) : ∃ t, exec i s = .next t := by
  cases i
  case deltaTime d =>
    by_cases hd : d = 0
    · exact ⟨s, by simp [exec, execDeltaTime, hd]⟩
    · exact ⟨_, by simp only [exec, execDeltaTime, hd, h, if_false]; rfl⟩
  case noteOn c n v => simp only [exec, execNoteOn]; split <;> exact ⟨_, rfl⟩
  case runningStatus x => simp only [exec, execRunningStatus]; split <;> exact ⟨_, rfl⟩
  all_goals exact ⟨_, rfl⟩

/-- DELTA_TIME of a non-zero delta emits one Delay or raises DelayOverflow. -/
theorem emitDelta_cases (d : Nat) (s : State) :
    (∃ ms, delayMs s.cfg.delayPolicy (exactMs d s.cfg.tps) = some ms ∧ emitDelta d s = s.emitDelay ms) ∨
    (delayMs s.cfg.delayPolicy (exactMs d s.cfg.tps) = none ∧
      emitDelta d s = s.raiseFault .delayOverflow) := by
  unfold emitDelta
  split
  · next ms h => exact .inl ⟨ms, h, rfl⟩
  · next h => exact .inr ⟨h, rfl⟩

/-- DelayMs is none only above 0xFFFF under the policy fault. -/
theorem delayMs_eq_none (p : DelayPolicy) (ms : Nat) :
    delayMs p ms = none ↔ 0xFFFF < ms ∧ p = .fault := by
  unfold delayMs
  split
  · next h => cases p <;> simp [h]
  · next h => simp [h]

/-! ### Warnings of a note-on -/

theorem warnFreq_eq (s : State) (c : Chan) (n : U7) :
    s.warnFreq c n =
      { s with log := s.log ++ if 1023 < s.rawFnum c n then [.freqOverflow] else [] } := by
  unfold State.warnFreq
  split
  · rfl
  · simp

theorem freeVoice_congr {s t : State} (hv : t.v = s.v) (hr : t.rhy = s.rhy) (k : U7) :
    freeVoice t k = freeVoice s k := by
  have hvoice : ∀ i, t.voice i = s.voice i := fun i => by simp [State.voice, hv]
  have hfree : ∀ i, t.isFree i = s.isFree i := fun i => by simp [State.isFree, hvoice]
  have hscan : ∀ l cand, scanFree t k l cand = scanFree s k l cand := by
    intro l
    induction l with
    | nil => intro cand; rfl
    | cons j l ih => intro cand; simp [scanFree, hfree, hvoice, ih]
  simp [freeVoice, hr, hscan]

/-- FindVoice steals, and logs it, exactly where no melodic voice is free. -/
theorem warnSteal_eq (s : State) (k : U7) :
    warnSteal s k =
      { s with log := s.log ++ if (melodicVoices s.rhy).any s.isFree then [] else [.polyphonyOverflow] } := by
  have hany : freeVoice s k = none ↔ (melodicVoices s.rhy).any s.isFree = false := by
    rw [freeVoice_eq_none]
    simp [mem_melodicVoices]
  unfold warnSteal
  split
  · next i h =>
    have : (melodicVoices s.rhy).any s.isFree = true := by
      by_contra hc
      rw [hany.mpr (by simpa using hc)] at h
      cases h
    simp [this]
  · next h => simp [hany.mp h, State.warn]

/-! ### Path choice and release -/

/-- The percussion path is taken exactly by channels 11 to 15 in rhythm mode. -/
theorem percDrum_eq_none (s : State) (c : Chan) : percDrum s.rhy c = none ↔ ¬ isPercussion s c := by
  unfold isPercussion percDrum
  cases hr : s.rhy
  · simp
  · revert c
    decide

/-- The voice a melodic note-off releases is melodic, sounds the note, and no lower one does. -/
theorem find_sounding (s : State) (c : Chan) (n : U7) (i : VoiceId) :
    (melodicVoices s.rhy).find? (s.sounds c n) = some i ↔
      i.val < melodicCount s.rhy ∧ s.sounds c n i = true ∧ ∀ j, j < i → s.sounds c n j = false := by
  generalize s.sounds c n = p
  have key : ∀ (r : Bool) (q : VoiceId → Bool) (i : VoiceId),
      (melodicVoices r).find? q = some i ↔
        i.val < melodicCount r ∧ q i = true ∧ ∀ j, j < i → q j = false := by
    intro r q i
    have hl : melodicVoices r = (List.finRange 9).take (melodicCount r) := by cases r <;> decide
    rw [hl, List.find?_eq_some_iff_getElem]
    constructor
    · rintro ⟨hq, m, hm, he, hlow⟩
      have hm' : m < melodicCount r ∧ m < 9 := by simpa using hm
      have hi : i.val = m := by rw [← he]; simp
      refine ⟨by omega, hq, fun j hj => ?_⟩
      have hj' : j.val < m := by have : j.val < i.val := hj; omega
      have := hlow j.val hj'
      simpa using this
    · rintro ⟨hi, hq, hlow⟩
      refine ⟨hq, i.val, by simp; omega, by simp, fun j hj => ?_⟩
      have := hlow ⟨j, by omega⟩ hj
      simpa using this
  exact key _ p i

/-! ### The search -/

/-- The search answers a number of its range that `ok` admits while it does not admit the next one: the
greatest, for an `ok` that is true up to some number and false above it. -/
theorem searchMax_spec (ok : Nat → Bool) (bits acc : Nat)
    (h0 : ok acc = true) (htop : ok (acc + 2 ^ bits) = false) :
    ok (searchMax ok bits acc) = true ∧ ok (searchMax ok bits acc + 1) = false ∧
      acc ≤ searchMax ok bits acc ∧ searchMax ok bits acc < acc + 2 ^ bits := by
  induction bits generalizing acc with
  | zero => exact ⟨h0, htop, le_refl _, by simp [searchMax]⟩
  | succ bits ih =>
    have hpow : 2 ^ (bits + 1) = 2 ^ bits + 2 ^ bits := by rw [pow_succ]; omega
    unfold searchMax
    split
    · next h =>
      obtain ⟨a, b, c, d⟩ := ih (acc + 2 ^ bits) h (by rw [Nat.add_assoc, ← hpow]; exact htop)
      exact ⟨a, b, by omega, by omega⟩
    · next h =>
      obtain ⟨a, b, c, d⟩ := ih acc h0 (by simpa using h)
      exact ⟨a, b, c, by omega⟩

end Sys2Proof.Machine
end

