-- ==== Sys2Proof/Laws/Frequency.lean ====
section
/-! SUPPORT. A host's FNUM_FN as a table: every function is one (00_scope R10). -/

namespace Sys2Proof.Machine

/-- A table whose entries are values of `f` answers `f` at each argument it lists. -/
theorem lookupFnum_eq (f : Nat → Nat → Int → Nat) (other n bend : Nat) (tr : Int) (es : List FnumEntry)
    (hf : ∀ e ∈ es, e.fnum = f e.note e.bend e.transpose)
    (hm : ∃ e ∈ es, e.note = n ∧ e.bend = bend ∧ e.transpose = tr) :
    lookupFnum other n bend tr es = f n bend tr := by
  induction es with
  | nil => obtain ⟨e, he, _⟩ := hm; cases he
  | cons x es ih =>
    unfold lookupFnum
    split
    · next h => rw [hf x (by simp), h.1, h.2.1, h.2.2]
    · next h =>
      refine ih (fun e he => hf e (by simp [he])) ?_
      obtain ⟨e, he, hk⟩ := hm
      rcases List.mem_cons.mp he with rfl | he
      · exact absurd hk h
      · exact ⟨e, he, hk⟩

/-- The entries of a function over every note, bend and transpose. -/
def fnumEntries (f : Nat → Nat → Int → Nat) : List FnumEntry :=
  (List.range 128).flatMap fun n => (List.range 16384).flatMap fun b =>
    (List.range 255).map fun (t : Nat) => ⟨n, b, Int.ofNat t - 127, f n b (Int.ofNat t - 127)⟩

/-- FNUM_FN can be any function of note, bend and transpose that a host gives. -/
theorem fnumFn_any (f : Nat → Nat → Int → Nat) :
    ∃ k : FnumFn, ∀ (n bend : Nat) (tr : Int), n < 128 → bend < 16384 → -127 ≤ tr → tr ≤ 127 →
      fnumFn k n bend tr = f n bend tr := by
  refine ⟨.table (fnumEntries f) 0, fun n bend tr hn hb h1 h2 => ?_⟩
  refine lookupFnum_eq f 0 n bend tr (fnumEntries f) (fun e he => ?_)
    ⟨⟨n, bend, tr, f n bend tr⟩, ?_, rfl, rfl, rfl⟩
  · simp only [fnumEntries, List.mem_flatMap, List.mem_map, List.mem_range] at he
    obtain ⟨_, _, _, _, _, _, rfl⟩ := he
    rfl
  · have ht : Int.ofNat (tr + 127).toNat - 127 = tr := by simp; omega
    have hr : (tr + 127).toNat < 255 := by omega
    refine List.mem_flatMap.mpr ⟨n, List.mem_range.mpr hn, List.mem_flatMap.mpr ⟨bend, List.mem_range.mpr hb,
      List.mem_map.mpr ⟨(tr + 127).toNat, List.mem_range.mpr hr, ?_⟩⟩⟩
    rw [ht]

end Sys2Proof.Machine
end

