-- ==== Sys2Proof/Laws/PerInstr.lean ====
section
/-! SUPPORT. One statement per instruction, proved constructor by constructor: the row its bytes decode
to (30_encoding R98) is well-formed, is its own row, and has the same bytes. -/

namespace Sys2Proof.Laws.RowKeepsBytes

/-- The row of a well-formed instruction is well-formed, stable, and has the instruction's bytes, of
which there is at least one. -/
def Statement (i : Instr) : Prop :=
  i.wellFormed = true →
    i.row.wellFormed = true ∧ i.row.row = i.row ∧ encode i.row = encode i ∧ encode i ≠ []

theorem controllerRow_keeps (c : Chan) (num val : U7) :
    (controllerRow c num val).wellFormed = true ∧
    (controllerRow c num val).row = controllerRow c num val ∧
    encode (controllerRow c num val) = [statusByte 0xB c, dataByte num, dataByte val] := by
  unfold controllerRow
  split
  · next h => subst h; exact ⟨rfl, rfl, rfl⟩
  split
  · next h => subst h; exact ⟨rfl, rfl, rfl⟩
  split
  · next h => subst h; exact ⟨rfl, rfl, rfl⟩
  split
  · next h => subst h; exact ⟨rfl, rfl, rfl⟩
  split
  · next h => subst h; exact ⟨rfl, rfl, rfl⟩
  · refine ⟨?_, rfl, rfl⟩
    simp only [Instr.wellFormed, namedControllers]
    simp
    exact ⟨by assumption, by assumption, by assumption, by assumption, by assumption⟩

theorem encodeVlq_ne_nil (d : Nat) : encodeVlq d ≠ [] := by
  unfold encodeVlq
  split
  · simp
  split
  · simp
  split <;> simp

theorem deltaTime (delta : Nat) : Statement (.deltaTime delta) :=
  fun h => ⟨h, rfl, rfl, encodeVlq_ne_nil delta⟩
theorem controller (c : Chan) (num val : U7) : Statement (.controller c num val) := fun _ =>
  ⟨(controllerRow_keeps c num val).1, (controllerRow_keeps c num val).2.1,
    (controllerRow_keeps c num val).2.2, by simp [encode]⟩
theorem noteOff (c : Chan) (n vel : U7) : Statement (.noteOff c n vel) :=
  fun h => ⟨h, rfl, rfl, by simp [encode]⟩
theorem noteOn (c : Chan) (n vel : U7) : Statement (.noteOn c n vel) :=
  fun h => ⟨h, rfl, rfl, by simp [encode]⟩
theorem polyPressure (c : Chan) (n p : U7) : Statement (.polyPressure c n p) :=
  fun h => ⟨h, rfl, rfl, by simp [encode]⟩
theorem ctrlAmvib (c : Chan) (val : U7) : Statement (.ctrlAmvib c val) :=
  fun h => ⟨h, rfl, rfl, by simp [encode]⟩
theorem ctrlMarker (c : Chan) (val : U7) : Statement (.ctrlMarker c val) :=
  fun h => ⟨h, rfl, rfl, by simp [encode]⟩
theorem ctrlRhythm (c : Chan) (val : U7) : Statement (.ctrlRhythm c val) :=
  fun h => ⟨h, rfl, rfl, by simp [encode]⟩
theorem ctrlTransposeUp (c : Chan) (val : U7) : Statement (.ctrlTransposeUp c val) :=
  fun h => ⟨h, rfl, rfl, by simp [encode]⟩
theorem ctrlTransposeDown (c : Chan) (val : U7) : Statement (.ctrlTransposeDown c val) :=
  fun h => ⟨h, rfl, rfl, by simp [encode]⟩
theorem ctrlOther (c : Chan) (num val : U7) : Statement (.ctrlOther c num val) :=
  fun h => ⟨h, rfl, rfl, by simp [encode]⟩
theorem program (c : Chan) (p : U7) : Statement (.program c p) :=
  fun h => ⟨h, rfl, rfl, by simp [encode]⟩
theorem chanPressure (c : Chan) (p : U7) : Statement (.chanPressure c p) :=
  fun h => ⟨h, rfl, rfl, by simp [encode]⟩
theorem pitchBend (c : Chan) (lsb msb : U7) : Statement (.pitchBend c lsb msb) :=
  fun h => ⟨h, rfl, rfl, by simp [encode]⟩
theorem sysex (payload : List U7) (q : U7) : Statement (.sysex payload q) :=
  fun h => ⟨h, rfl, rfl, by simp [encode]⟩
theorem mtcQuarterFrame (p : Byte) : Statement (.mtcQuarterFrame p) :=
  fun h => ⟨h, rfl, rfl, by simp [encode]⟩
theorem songPosition (p1 p2 : Byte) : Statement (.songPosition p1 p2) :=
  fun h => ⟨h, rfl, rfl, by simp [encode]⟩
theorem songSelect (p : Byte) : Statement (.songSelect p) :=
  fun h => ⟨h, rfl, rfl, by simp [encode]⟩
theorem sysUndefinedF4 : Statement .sysUndefinedF4 :=
  fun h => ⟨h, rfl, rfl, by simp [encode]⟩
theorem sysUndefinedF5 : Statement .sysUndefinedF5 :=
  fun h => ⟨h, rfl, rfl, by simp [encode]⟩
theorem tuneRequest : Statement .tuneRequest :=
  fun h => ⟨h, rfl, rfl, by simp [encode]⟩
theorem endSysex : Statement .endSysex :=
  fun h => ⟨h, rfl, rfl, by simp [encode]⟩
theorem timingClock : Statement .timingClock :=
  fun h => ⟨h, rfl, rfl, by simp [encode]⟩
theorem sysUndefinedF9 : Statement .sysUndefinedF9 :=
  fun h => ⟨h, rfl, rfl, by simp [encode]⟩
theorem start : Statement .start :=
  fun h => ⟨h, rfl, rfl, by simp [encode]⟩
theorem continuePlay : Statement .continuePlay :=
  fun h => ⟨h, rfl, rfl, by simp [encode]⟩
theorem stop : Statement .stop :=
  fun h => ⟨h, rfl, rfl, by simp [encode]⟩
theorem sysUndefinedFD : Statement .sysUndefinedFD :=
  fun h => ⟨h, rfl, rfl, by simp [encode]⟩
theorem activeSensing : Statement .activeSensing :=
  fun h => ⟨h, rfl, rfl, by simp [encode]⟩
theorem metaEndOfTrack : Statement .metaEndOfTrack :=
  fun h => ⟨h, rfl, rfl, by simp [encode]⟩
theorem metaOther (t : Byte) : Statement (.metaOther t) :=
  fun h => ⟨h, rfl, rfl, by simp [encode]⟩
theorem runningStatus (x : U7) : Statement (.runningStatus x) :=
  fun h => ⟨h, rfl, rfl, by simp [encode]⟩

end Sys2Proof.Laws.RowKeepsBytes
end

