-- ==== Sys2Proof/Tests/Slice0.lean ====
section
/-! SUPPORT. Tests: the well-formedness smoke test, one decoded word per constructor, single steps with
the values of the spec's own examples, and a witness for the hypotheses of each obligation. -/

namespace Sys2Proof.Tests

open Sys2Proof.Machine

/-! ### Small states -/

/-- An instrument whose eleven bytes differ: 1 to 5 in the modulator, 0x46 to 0x4A in the carrier. -/
def inst : Instrument := ⟨⟨1, 2, 3, 4, 5⟩, ⟨0x46, 0x47, 0x48, 0x49, 0x4A⟩, 0x0B⟩

/-- The default configuration with that instrument in every slot and the given stream. -/
def cfgOf (bytes : List Byte) : Config :=
  { Config.default with music := musicOfBytes bytes, bank := Vector.replicate 128 inst }

/-- A freshly reset engine over the given stream. -/
def fresh (bytes : List Byte) : State := State.initial (cfgOf bytes)

/-- An engine on whose voice 0 note 60 of channel 0 sounds, as NOTE_ON leaves it (42 R182 example). -/
def playing (bytes : List Byte) : State :=
  ((((fresh bytes).setRs 0x90).setVoiceInstrument 0 (some 0)).stamp 0 60 0).writeRegs
    [(0xA0, 0x57), (0xB0, 0x31)]

/-- An engine in rhythm mode. -/
def rhythm (bytes : List Byte) : State := (((fresh bytes).setRs 0xB0).setRhythm true).writeReg 0xBD 0x20

/-- An engine whose bass drum sounds note 36 (45 R264). -/
def drumming (bytes : List Byte) : State := ((rhythm bytes).stamp 6 36 11).writeReg 0xBD 0x30

/-- The next state of a step. -/
def next (s : State) : Option State :=
  match step s with
  | .next t => some t
  | .fault _ => none
  | .refused _ => none

/-- The next state of one instruction. -/
def after (i : Instr) (s : State) : Option State :=
  match exec i s with
  | .next t => some t
  | .fault _ => none
  | .refused _ => none

/-! ### Well-formedness -/

theorem test_wf_deltaTime : (Instr.deltaTime 0x10000000).wellFormed = false := by decide
theorem test_wf_ctrlOther_63 : (Instr.ctrlOther 0 0x63 0).wellFormed = false := by decide
theorem test_wf_ctrlOther_66 : (Instr.ctrlOther 0 0x66 0).wellFormed = false := by decide
theorem test_wf_ctrlOther_67 : (Instr.ctrlOther 0 0x67 0).wellFormed = false := by decide
theorem test_wf_ctrlOther_68 : (Instr.ctrlOther 0 0x68 0).wellFormed = false := by decide
theorem test_wf_ctrlOther_69 : (Instr.ctrlOther 0 0x69 0).wellFormed = false := by decide
theorem test_wf_metaOther : (Instr.metaOther 0x2F).wellFormed = false := by decide

/-! ### Decoding: one word per constructor, written out from 30_encoding R91 to R99 -/

theorem test_decode_deltaTime : decodeVlq [0x83, 0x60] = .value 480 2 := by decide
theorem test_decode_delta_four_bytes : decodeVlq [0x80, 0x80, 0x80, 0x80, 0x90] = .value 0 4 := by decide
theorem test_decode_table_delta : decodeTableWord 0 0 = some (.deltaTime 0) := by decide
theorem test_decode_noteOff :
    decodeMessage [0b10000000, 0b00111100, 0b01000000] = .instr (.noteOff 0 60 64) 3 := by decide
theorem test_decode_noteOn :
    decodeMessage [0b10011011, 0b00100100, 0b01111111] = .instr (.noteOn 11 36 127) 3 := by decide
theorem test_decode_polyPressure :
    decodeMessage [0b10100011, 0b00111100, 0b00001010] = .instr (.polyPressure 3 60 10) 3 := by decide
theorem test_decode_controller :
    decodeMessage (encode (.controller 2 0x67 1)) = .instr (.ctrlRhythm 2 1) 3 := by decide
theorem test_decode_ctrlAmvib :
    decodeMessage [0b10110000, 0b01100011, 0b00000011] = .instr (.ctrlAmvib 0 3) 3 := by decide
theorem test_decode_ctrlMarker :
    decodeMessage [0b10110000, 0b01100110, 0b00000101] = .instr (.ctrlMarker 0 5) 3 := by decide
theorem test_decode_ctrlRhythm :
    decodeMessage [0b10110000, 0b01100111, 0b00000001] = .instr (.ctrlRhythm 0 1) 3 := by decide
theorem test_decode_ctrlTransposeUp :
    decodeMessage [0b10110000, 0b01101000, 0b01000000] = .instr (.ctrlTransposeUp 0 64) 3 := by decide
theorem test_decode_ctrlTransposeDown :
    decodeMessage [0b10110000, 0b01101001, 0b01111111] = .instr (.ctrlTransposeDown 0 127) 3 := by decide
theorem test_decode_ctrlOther :
    decodeMessage [0b10110000, 0b00000111, 0b01100100] = .instr (.ctrlOther 0 7 100) 3 := by decide
theorem test_decode_program :
    decodeMessage [0b11000010, 0b00000101] = .instr (.program 2 5) 2 := by decide
theorem test_decode_chanPressure :
    decodeMessage [0b11010000, 0b01000000] = .instr (.chanPressure 0 64) 2 := by decide
theorem test_decode_pitchBend :
    decodeMessage [0b11100000, 0b00000000, 0b01100000] = .instr (.pitchBend 0 0 96) 3 := by decide
theorem test_decode_sysex :
    decodeMessage [0xF0, 0x7D, 0x10, 0xF7] = .instr (.sysex [0x7D, 0x10] 0x77) 4 := by decide
theorem test_decode_mtcQuarterFrame :
    decodeMessage [0xF1, 0x92] = .instr (.mtcQuarterFrame 0x92) 2 := by decide
theorem test_decode_songPosition :
    decodeMessage [0xF2, 0x00, 0x10] = .instr (.songPosition 0 0x10) 3 := by decide
theorem test_decode_songSelect : decodeMessage [0xF3, 0x02] = .instr (.songSelect 2) 2 := by decide
theorem test_decode_sysUndefinedF4 : decodeMessage [0xF4] = .instr .sysUndefinedF4 1 := by decide
theorem test_decode_sysUndefinedF5 : decodeMessage [0xF5] = .instr .sysUndefinedF5 1 := by decide
theorem test_decode_tuneRequest : decodeMessage [0xF6] = .instr .tuneRequest 1 := by decide
theorem test_decode_endSysex : decodeMessage [0xF7] = .instr .endSysex 1 := by decide
theorem test_decode_timingClock : decodeMessage [0xF8] = .instr .timingClock 1 := by decide
theorem test_decode_sysUndefinedF9 : decodeMessage [0xF9] = .instr .sysUndefinedF9 1 := by decide
theorem test_decode_start : decodeMessage [0xFA] = .instr .start 1 := by decide
theorem test_decode_continuePlay : decodeMessage [0xFB] = .instr .continuePlay 1 := by decide
theorem test_decode_stop : decodeMessage [0xFC] = .instr .stop 1 := by decide
theorem test_decode_sysUndefinedFD : decodeMessage [0xFD] = .instr .sysUndefinedFD 1 := by decide
theorem test_decode_activeSensing : decodeMessage [0xFE] = .instr .activeSensing 1 := by decide
theorem test_decode_metaEndOfTrack : decodeMessage [0xFF, 0x2F] = .instr .metaEndOfTrack 2 := by decide
theorem test_decode_metaOther : decodeMessage [0xFF, 0x51] = .instr (.metaOther 0x51) 2 := by decide
theorem test_decode_runningStatus : decodeMessage [0x3C] = .instr (.runningStatus 0x3C) 1 := by decide

/-! ### Single steps, with the values the spec's rules give as examples -/

/-- 44 R228: `+96 STOP` with TPS = 96. -/
theorem test_delay_then_stop :
    (next (fresh [0x60, 0xFC])).map (fun t => (t.out, t.run, t.ptr)) =
      some ([.delay 1000], .ended .stop, 2) := by decide
/-- 41 R161: DelayOverflow is raised before the status byte is read. -/
theorem test_delay_overflow :
    (next ((fresh [0x83, 0xFF, 0x7F]))).map (fun t => (t.out, t.run, t.ptr)) =
      some ([], .faulted .delayOverflow, 3) := by decide
/-- 42 R181. -/
theorem test_noteOff :
    (next (playing [0x00, 0x80, 0x3C, 0x40])).map (fun t => (t.out.drop 2, t.voice 0)) =
      some ([.write 0xB0 0x11], ⟨0, some 60, some 0, some 0⟩) := by decide
/-- 42 R182: the first note of a fresh engine binds voice 0 and writes 0x57, 0x31. -/
theorem test_noteOn :
    (next (fresh [0x00, 0x90, 0x3C, 0x7F])).map (fun t => (t.out, t.voice 0, t.nc)) =
      some ([.write 0x20 1, .write 0x40 2, .write 0x60 3, .write 0x80 4, .write 0xE0 5,
        .write 0x23 0x46, .write 0x43 0x47, .write 0x63 0x48, .write 0x83 0x49, .write 0xE3 0x4A,
        .write 0xC0 0x0B, .write 0xA0 0x57, .write 0xB0 0x31], ⟨1, some 60, some 0, some 0⟩, 1) := by
  decide
/-- 45 R264: the bass drum, with the level write (car.b40 & 0xC0). -/
theorem test_noteOn_bass_drum :
    (after (.noteOn 11 36 127) (rhythm [])).map (fun t => (t.out.drop 12, t.voice 6)) =
      some ([.write 0x53 0x40, .write 0xBD 0x20, .write 0xBD 0x30, .write 0xA6 0x57, .write 0xB6 0x09],
        ⟨1, some 36, some 11, none⟩) := by decide
/-- 45 R264: its note-off. -/
theorem test_noteOff_bass_drum :
    (after (.noteOff 11 36 0) (drumming [])).map (fun t => (t.out.drop 2, t.isFree 6)) =
      some ([.write 0xBD 0x20], true) := by decide
/-- 45 R250, R253: a snare binds one operator, the carrier's slot 0x14, from the carrier. -/
theorem test_noteOn_snare :
    (after (.noteOn 12 36 127) (rhythm [])).map (fun t => (t.out.drop 1).take 5) =
      some [.write 0x34 0x46, .write 0x54 0x47, .write 0x74 0x48, .write 0x94 0x49, .write 0xF4 0x4A] := by
  decide
/-- 45 R250, R253: the tom's slot is 0x12, from the modulator. -/
theorem test_noteOn_tom :
    (after (.noteOn 13 36 127) (rhythm [])).map (fun t => (t.out.drop 1).take 5) =
      some [.write 0x32 1, .write 0x52 2, .write 0x72 3, .write 0x92 4, .write 0xF2 5] := by decide
/-- 45 R250, R253: the cymbal's slot is 0x15, here from the modulator by PERC_OPERATOR_SOURCE. -/
theorem test_noteOn_cymbal_modulator :
    (after (.noteOn 14 36 127)
        { rhythm [] with cfg := { cfgOf [] with percSource := .modulator } }).map
          (fun t => (t.out.drop 1).take 5) =
      some [.write 0x35 1, .write 0x55 2, .write 0x75 3, .write 0x95 4, .write 0xF5 5] := by decide
/-- 45 R250, R253: the hihat's slot is 0x11, from the modulator. -/
theorem test_noteOn_hihat :
    (after (.noteOn 15 36 127) (rhythm [])).map (fun t => (t.out.drop 1).take 5) =
      some [.write 0x31 1, .write 0x51 2, .write 0x71 3, .write 0x91 4, .write 0xF1 5] := by decide
/-- 95 V-FR-9: a host's FNUM_FN that answers 1100 logs FreqOverflow, and F = 76 = 0x4C. -/
theorem test_host_fnum :
    (after (.noteOn 0 60 127) { fresh [] with cfg := { cfgOf [] with fnumFn := .table [] 1100 } }).map
        (fun t => (t.log, t.out.drop 11)) =
      some ([.freqOverflow], [.write 0xA0 0x4C, .write 0xB0 0x30]) := by decide
/-- 46 R283, R285: note 60 with TR = 64, and with bend 12288, has F-number 353 = 0x161. -/
theorem test_noteOn_retuned :
    (after (.noteOn 0 60 127) ((fresh []).setTranspose 64)).map (fun t => t.out.drop 11) =
        some [.write 0xA0 0x61, .write 0xB0 0x31] ∧
      (after (.noteOn 0 60 127) ((fresh []).setChannel 0 ⟨0, 12288⟩)).map (fun t => t.out.drop 11) =
        some [.write 0xA0 0x61, .write 0xB0 0x31] := by decide
/-- 46 R283, R285: the bass drum's note 60 with TR = 64 has F-number 353 = 0x161. -/
theorem test_drum_retuned :
    (after (.noteOn 11 60 127) ((rhythm []).setTranspose 64)).map (fun t => t.out.drop 15) =
      some [.write 0xA6 0x61, .write 0xB6 0x11] := by decide
/-- 00 R10: a host's table is read at the note, bend and transpose of the note-on. -/
theorem test_host_fnum_entry :
    lookupFnum 1 60 8192 64 [⟨61, 8192, 64, 2⟩, ⟨60, 8191, 64, 3⟩, ⟨60, 8192, 63, 4⟩, ⟨60, 8192, 64, 5⟩] = 5 ∧
      lookupFnum 1 60 8192 65 [⟨60, 8192, 64, 5⟩] = 1 := by decide
/-- 95 V-AL-10: at the greatest counter the binding stays, and voice 0 holds the instrument only. -/
theorem test_counter_overflow :
    (after (.noteOn 0 60 127) { fresh [] with nc := 2 ^ 32 - 1 }).map
        (fun t => (t.run, t.voice 0, t.out.length, t.nc)) =
      some (.faulted .noteCounterOverflow, ⟨0, none, none, some 0⟩, 11, 2 ^ 32 - 1) := by decide
/-- 46 R281: the examples of Pack that the two packings give differently or alike. -/
theorem test_pack :
    packKeyBlock .truncate8 8 343 false = 0x21 ∧ packKeyBlock .mask3 8 343 false = 0x01 ∧
      packKeyBlock .truncate8 9 514 true = 0x26 ∧ packKeyBlock .mask3 9 514 true = 0x26 ∧
      packKeyBlock .truncate8 2 343 false = 0x09 := by decide
/-- 40 R132: the eleven record bytes 0xB0 to 0xBA under the default layout. -/
theorem test_record :
    decodeRecord .default [0xB0, 0xB1, 0xB2, 0xB3, 0xB4, 0xB5, 0xB6, 0xB7, 0xB8, 0xB9, 0xBA] 0 =
      ⟨⟨0xB0, 0xB2, 0xB4, 0xB6, 0xB8⟩, ⟨0xB1, 0xB3, 0xB5, 0xB7, 0xB9⟩, 0xBA⟩ := by decide
/-- 42 R182: running status, velocity 0 is a note off. -/
theorem test_runningStatus :
    (next (playing [0x00, 0x3C, 0x00])).map (fun t => (t.out.drop 2, t.ptr, t.rs)) =
      some ([.write 0xB0 0x11], 3, 0x90) := by decide
/-- 41 R157: running status on a fresh engine. -/
theorem test_runningStatus_corrupt :
    (next (fresh [0x00, 0x3C, 0x40])).map (fun t => (t.out, t.run)) =
      some ([], .ended .corruptStream) := by decide
/-- 20 R62: a data byte with bit 7 set; the tick has changed PTR and RS only. -/
theorem test_bad_data_byte :
    (next (fresh [0x00, 0x90, 0x3C, 0x80])).map (fun t => (t.out, t.run, t.ptr, t.rs)) =
      some ([], .faulted .badDataByte, 4, 0x90) := by decide
/-- 42 R183. -/
theorem test_polyPressure :
    (next (fresh [0x00, 0xA3, 0x3C, 0x0A])).map (fun t => (t.out, t.log)) =
      some ([], [.pressureIgnored]) := by decide
/-- 42 R184. -/
theorem test_controller :
    (after (.controller 5 0x67 1) (fresh [])).map (fun t => (t.out, t.rhy)) =
      some ([.write 0xBD 0x20], true) := by decide
/-- 43 R202. -/
theorem test_ctrlAmvib :
    (next (fresh [0x00, 0xB0, 0x63, 0x03])).map (fun t => t.out) = some [.write 0xBD 0xC0] := by decide
/-- 43 R203. -/
theorem test_ctrlMarker :
    (next (fresh [0x00, 0xB0, 0x66, 0x05])).map (fun t => (t.out, t.log)) =
      some ([], [.markerIgnored]) := by decide
/-- 43 R204: rhythm off clears bit 5 only. -/
theorem test_ctrlRhythm_off :
    (next (drumming [0x00, 0xB0, 0x67, 0x00])).map (fun t => (t.out.drop 2, t.rhy)) =
      some ([.write 0xBD 0x10], false) := by decide
/-- 43 R205. -/
theorem test_ctrlTransposeUp :
    (next (fresh [0x00, 0xB0, 0x68, 0x40])).map (fun t => (t.out, t.tr)) = some ([], 64) := by decide
/-- 43 R206. -/
theorem test_ctrlTransposeDown :
    (next (fresh [0x00, 0xB0, 0x69, 0x7F])).map (fun t => (t.out, t.tr)) = some ([], -127) := by decide
/-- 43 R207. -/
theorem test_ctrlOther :
    (next (fresh [0x00, 0xB0, 0x07, 0x64])).map (fun t => (t.out, t.log)) =
      some ([], [.unknownController]) := by decide
/-- 42 R186. -/
theorem test_program :
    (next (fresh [0x00, 0xC2, 0x05])).map (fun t => (t.out, (t.channel 2).instrument)) =
      some ([], 5) := by decide
/-- 42 R187. -/
theorem test_chanPressure :
    (next (fresh [0x00, 0xD0, 0x40])).map (fun t => (t.out, t.log)) =
      some ([], [.pressureIgnored]) := by decide
/-- 42 R188. -/
theorem test_pitchBend :
    (next (fresh [0x00, 0xE0, 0x00, 0x60])).map (fun t => (t.out, (t.channel 0).bend)) =
      some ([], 12288) := by decide
/-- 44 R216: the terminator is any byte with bit 7 set, and RS stays 0xF0. -/
theorem test_sysex :
    (next (fresh [0x00, 0xF0, 0x01, 0x90, 0x3C])).map (fun t => (t.out, t.log, t.ptr, t.rs)) =
      some ([], [.sysexData [0x01, 0x90]], 4, 0xF0) := by decide
/-- 44 R217. -/
theorem test_mtcQuarterFrame :
    (next (fresh [0x00, 0xF1, 0x92])).map (fun t => (t.out, t.ptr, t.run)) =
      some ([], 3, .running) := by decide
/-- 44 R218. -/
theorem test_songPosition :
    (next (fresh [0x00, 0xF2, 0x00, 0x10])).map (fun t => (t.out, t.ptr)) = some ([], 4) := by decide
/-- 44 R219. -/
theorem test_songSelect :
    (next (fresh [0x00, 0xF3, 0x02])).map (fun t => (t.out, t.ptr)) = some ([], 3) := by decide
/-- 44 R220, R221, R225, R229: no payload is read. -/
theorem test_undefined_system :
    [0xF4, 0xF5, 0xF9, 0xFD].all (fun b =>
      decide ((next (fresh [0x00, b, 0x00])).map (fun t => (t.out, t.log, t.ptr)) =
        some ([], [.unknownSystem], 2))) = true := by decide
/-- 44 R222 to R224, R226, R227, R230: no action, no warning. -/
theorem test_system_no_ops :
    [0xF6, 0xF7, 0xF8, 0xFA, 0xFB, 0xFE].all (fun b =>
      decide ((next (playing [0x00, b, 0x00])).map (fun t => (t.log, t.ptr, t.rs, t.v)) =
        some ([], 2, b, (playing []).v))) = true := by decide
/-- 41 R164: the source's stream 00 FF 2F. -/
theorem test_metaEndOfTrack :
    (next (fresh [0x00, 0xFF, 0x2F])).map (fun t => (t.out, t.run, t.ptr)) =
      some ([], .ended .endOfTrack, 3) := by decide
/-- 44 R233. -/
theorem test_metaOther :
    (next (fresh [0x00, 0xFF, 0x51])).map (fun t => (t.out, t.log, t.run)) =
      some ([], [.metaIgnored], .running) := by decide
/-- The host's question: the table word of PROGRAM ch=2 instr=5 runs as the first instruction. -/
theorem test_withFetchWord :
    (next (State.reset.withFetchWord 16 0xC205)).map (fun t => (t.channel 2).instrument) = some 5 := by
  decide

/-! ### Witnesses: concrete values that meet the hypotheses of an obligation, clause by clause -/

/-- The canonical form of a small mirror, as a Bool. -/
def canonical (m : Memory) : Bool := decide (Memory.wf m)

theorem witness_DecodeEncodeMessage :
    (Instr.sysex [1, 2] 0x77).wellFormed = true ∧ (∀ d, Instr.sysex [1, 2] 0x77 ≠ .deltaTime d) ∧
      (∀ c num val, Instr.sysex [1, 2] 0x77 ≠ .controller c num val) :=
  ⟨by decide, nofun, nofun⟩
theorem witness_DecodeEncodeDelta : 0x0FFFFFFF ≤ 0x0FFFFFFF ∧ 0 ≤ 0x0FFFFFFF := by decide
theorem witness_EncodeDecodedMessage :
    decodeMessage [0xBF, 0x62, 0x7F, 0x00] = .instr (.ctrlOther 15 0x62 0x7F) 3 := by decide
theorem witness_DeltaTimeReading_value :
    decodeVlq [0xFF, 0xFF, 0xFF, 0xFF] = .value 0x0FFFFFFF 4 ∧ decodeVlq [0x00] = .value 0 1 := by decide
theorem witness_DeltaTimeReading_truncated :
    decodeVlq [0x80, 0x80, 0x80] = .truncated 3 ∧ decodeVlq [] = .truncated 0 := by decide
/-- The hypotheses common to both clauses, and those of a message with its status byte. -/
theorem witness_StepRunsDecodedEvent_status :
    let s := fresh [0x00, 0x90, 0x3C, 0x7F]
    let s1 := s.advance 1
    s.run = .running ∧ s.cfg.tps ≠ 0 ∧ decodeVlq s.remaining = .value 0 1 ∧
      after (.deltaTime 0) (s.advance 1) = some s1 ∧ s1.run = .running ∧
      s1.remaining = [0x90, 0x3C, 0x7F] ∧ (0x90 : Byte).msb = true ∧
      decodeBody 0x90 [0x3C, 0x7F] = .instr (.noteOn 0 60 127) 2 :=
  ⟨rfl, by decide, by decide, rfl, rfl, by decide, by decide, by decide⟩
theorem witness_StepRunsDecodedEvent_running_status :
    let s := playing [0x00, 0x3C, 0x00]
    let s1 := s.advance 1
    s.run = .running ∧ s.cfg.tps ≠ 0 ∧ decodeVlq s.remaining = .value 0 1 ∧
      after (.deltaTime 0) (s.advance 1) = some s1 ∧ s1.run = .running ∧
      s1.remaining = [0x3C, 0x00] ∧ (0x3C : Byte).msb = false ∧ s1.rs.msb = true ∧
      decodeBody s1.rs [0x3C, 0x00] = .instr (.noteOn 0 60 0) 2 :=
  ⟨rfl, by decide, by decide, rfl, rfl, by decide, by decide, by decide, by decide⟩
theorem witness_StepEndsBadEvents_truncated :
    let s := fresh [0x81]
    s.run = .running ∧ s.cfg.tps ≠ 0 ∧ decodeVlq s.remaining = .truncated 1 := by decide
theorem witness_StepEndsBadEvents_stopped :
    let s := fresh [0x83, 0xFF, 0x7F]
    decodeVlq s.remaining = .value 65535 3 ∧
      (after (.deltaTime 65535) (s.advance 3)).map (·.run) = some (.faulted .delayOverflow) := by decide
theorem witness_StepEndsBadEvents_no_message :
    let s := fresh [0x00]
    decodeVlq s.remaining = .value 0 1 ∧ after (.deltaTime 0) (s.advance 1) = some (s.advance 1) ∧
      (s.advance 1).run = .running ∧ (s.advance 1).remaining = [] :=
  ⟨by decide, rfl, rfl, by decide⟩
theorem witness_StepEndsBadEvents_status :
    (fresh [0x00, 0x90, 0x3C]).remaining = [0x00, 0x90, 0x3C] ∧
      decodeBody 0x90 [0x3C] = .truncated 1 ∧ decodeBody 0x90 [0x80, 0x00] = .badDataByte 1 ∧
      decodeBody 0x90 [0x3C, 0x80] = .badDataByte 2 ∧ decodeBody 0xF0 [0x01] = .truncated 1 := by decide
theorem witness_StepEndsBadEvents_running_status :
    (fresh [0x00, 0x3C]).rs.msb = false ∧ (playing [0x00, 0x3C]).rs.msb = true ∧
      decodeBody (playing []).rs [0x3C] = .truncated 1 ∧
      decodeBody (playing []).rs [0x3C, 0x80] = .badDataByte 2 := by decide
theorem witness_StoppedEngineDoesNothing :
    ((fresh []).terminate .stop).run = .ended .stop ∧
      ((fresh []).raiseFault .badDataByte).run = .faulted .badDataByte ∧
      ((fresh []).terminate .stop).run ≠ .running := by decide
theorem witness_StepAnswersNext : (fresh [0x00]).cfg.tps ≠ 0 := by decide
theorem witness_ZeroTpsRefused :
    let cfg := { cfgOf [] with tps := 0 }
    (State.initial cfg).run = .running ∧ (State.initial cfg).cfg.tps = 0 ∧ cfg.tps = 0 := by decide
theorem witness_EveryResetIsLegal :
    resetEngine { cfgOf [] with presetPercFreqs := true } =
      .ok (presetPercFreqs (State.initial { cfgOf [] with presetPercFreqs := true })) := by decide +kernel
/-- A legal state in which a note sounds, and a step that answers a next state from it. -/
theorem witness_StepKeepsLegalState :
    LegalState (playing [0x00, 0x80, 0x3C, 0x40]) ∧ (next (playing [0x00, 0x80, 0x3C, 0x40])).isSome = true :=
  ⟨{ mirrorCanonical := by decide
     mirrorFootprint := by decide +kernel
     rhythmMirrored := by decide
     stampsBounded := by decide
     stampsDistinct := by decide
     counterFits := by decide
     transposeRange := by decide
     pointerRange := by decide
     statusStored := by decide }, by decide⟩
theorem witness_StepKeepsMirrorReplay :
    let s := playing [0x00, 0x80, 0x3C, 0x40]
    Memory.wf s.mirror ∧ (∀ r : Byte, s.mirrorAt r = lastWritten r s.out) ∧ (next s).isSome = true := by
  decide +kernel
theorem witness_StepKeepsConfiguration : (next (fresh [0x00, 0xC2, 0x05])).isSome = true := by decide
theorem witness_PointerGrowsEachTick :
    (fresh [0x00, 0xFE]).run = .running ∧
      (next (fresh [0x00, 0xFE])).map (fun t => (t.run, t.ptr, t.streamLength)) =
        some (.running, 2, 2) := by decide
theorem witness_HostRunEnds : (fresh [0x00, 0xFE]).cfg.tps ≠ 0 := by decide
theorem witness_TickEmitsOneDelayThenWrites :
    (next (fresh [0x60, 0xB0, 0x67, 0x01])).map (·.out) = some [.delay 1000, .write 0xBD 0x20] := by decide
theorem witness_CutShortTickHasNoEffect :
    (next (fresh [0x60, 0x90, 0x3C])).map (fun t => (t.run, t.out)) =
        some (.ended .corruptStream, [.delay 1000]) ∧
      (next (fresh [0x00, 0x90, 0x80])).map (fun t => (t.run, t.out)) =
        some (.faulted .badDataByte, []) := by decide
/-- An instruction that none of the clauses of OnlyTheNamedInstructionsWrite excepts. -/
theorem witness_OnlyTheNamedInstructionsWrite :
    (after (.ctrlAmvib 0 3) (fresh [])).isSome = true ∧
      (∀ c val, Instr.ctrlAmvib 0 3 ≠ .ctrlRhythm c val) ∧
      (∀ c val, Instr.ctrlAmvib 0 3 ≠ .controller c 0x67 val) ∧
      (∀ c p, Instr.ctrlAmvib 0 3 ≠ .program c p) ∧ (∀ x, Instr.ctrlAmvib 0 3 ≠ .runningStatus x) :=
  ⟨by decide, nofun, nofun, nofun, nofun⟩
theorem witness_DeltaTimeEmitsItsDelay :
    let s := fresh []
    s.cfg.tps ≠ 0 ∧ 6291 * 1000 / s.cfg.tps.toNat ≤ 0xFFFF ∧ 0xFFFF < 6292 * 1000 / s.cfg.tps.toNat ∧
      s.cfg.delayPolicy = .fault ∧
      ({ cfgOf [] with delayPolicy := .truncate16 } : Config).delayPolicy = .truncate16 ∧
      ({ cfgOf [] with delayPolicy := .saturate } : Config).delayPolicy = .saturate := by decide
theorem witness_RunningStatusGivesTheByteBack :
    (playing []).rs.msb = true ∧ (fresh []).rs.msb = false := by decide
theorem witness_ControllerDispatches :
    (0x62 : U7) ∉ namedControllers ∧ (0x64 : U7) ∉ namedControllers ∧ (0x65 : U7) ∉ namedControllers ∧
      (0x6A : U7) ∉ namedControllers := by decide
theorem witness_canonical_mirror :
    Memory.wf (playing []).mirror ∧ Memory.wf (rhythm []).mirror ∧ Memory.wf (drumming []).mirror := by decide
/-- FindVoice: the highest free voice that holds the instrument is voice 8, whatever voice 3 holds. -/
theorem witness_FindVoice_match :
    let s := ((fresh []).setVoiceInstrument 8 (some 5)).setVoiceInstrument 3 (some 5)
    isMelodicVoice s 8 ∧ s.isFree 8 = true ∧ (s.voice 8).instrument = some 5 ∧
      (∀ j : VoiceId, 8 < j → s.isFree j = true → (s.voice j).instrument ≠ some 5) ∧
      findVoice s 5 = 8 := by
  unfold isMelodicVoice; decide
theorem witness_FindVoice_lowest :
    let s := playing []
    isMelodicVoice s 1 ∧ s.isFree 1 = true ∧
      (∀ j : VoiceId, s.isFree j = true → (s.voice j).instrument ≠ some 5) ∧
      (∀ j : VoiceId, j < 1 → s.isFree j = false) ∧ findVoice s 5 = 1 := by
  unfold isMelodicVoice; decide
/-- An engine on which all nine voices sound, voice 4 the oldest. -/
def full : State :=
  [(0, 9), (1, 8), (2, 7), (3, 6), (4, 1), (5, 5), (6, 4), (7, 3), (8, 2)].foldl
    (fun s (p : VoiceId × Nat) => s.setVoice p.1 ⟨p.2, some 60, some 0, none⟩) (fresh [])
theorem witness_FindVoice_steal :
    isMelodicVoice full 4 ∧ (∀ j : VoiceId, full.isFree j = false) ∧
      (∀ j : VoiceId, (full.voice 4).noteStart ≤ (full.voice j).noteStart) ∧
      (∀ j : VoiceId, j < 4 → (full.voice 4).noteStart ≠ (full.voice j).noteStart) ∧
      findVoice full 5 = 4 := by
  unfold isMelodicVoice; decide
theorem witness_MelodicNoteOnResult :
    (1 : U7) ≠ 0 ∧ ¬ isPercussion (playing []) 15 ∧ ¬ isPercussion (rhythm []) 10 ∧
      (playing []).nc ≠ 2 ^ (playing []).cfg.ncWidth - 1 ∧ Memory.wf (playing []).mirror := by
  unfold isPercussion; decide
/-- Both tables of FNUM_FN, both sides of ten bits, a voice that is rebound, one that is not, and no free
voice. -/
theorem witness_MelodicNoteOnResult_clauses :
    (playing []).cfg.fnumFn = .reference ∧ (playing []).rawFnum 0 60 ≤ 1023 ∧
      1023 < ({ fresh [] with cfg := { cfgOf [] with fnumFn := .table [] 1024 } } : State).rawFnum 0 60 ∧
      ((fresh []).voice (findVoice (fresh []) 0)).instrument ≠ some 0 ∧
      (((fresh []).setVoiceInstrument 8 (some 0)).voice
        (findVoice ((fresh []).setVoiceInstrument 8 (some 0)) 0)).instrument = some 0 ∧
      ((playing []).voice 8).noteStart = 0 ∧ (∀ i : VoiceId, (full.voice i).noteStart ≠ 0) := by decide
theorem witness_MelodicNoteOffResult_sounding :
    ¬ isPercussion (playing []) 0 ∧ isMelodicVoice (playing []) 0 ∧ isSounding (playing []) 0 60 0 ∧
      (∀ j : VoiceId, j < 0 → ¬ isSounding (playing []) 0 60 j) := by
  unfold isPercussion isMelodicVoice isSounding; decide
theorem witness_MelodicNoteOffResult_silent :
    ∀ i : VoiceId, ¬ isSounding (playing []) 0 61 i ∧ ¬ isSounding (playing []) 1 60 i := by
  unfold isSounding; decide
theorem witness_PercussionNoteOnResult :
    (rhythm []).rhy = true ∧ drumOfChannel 11 = some .bass ∧ drumOfChannel 15 = some .hihat ∧
      (rhythm []).nc ≠ 2 ^ (rhythm []).cfg.ncWidth - 1 ∧ Memory.wf (rhythm []).mirror := by decide
theorem witness_PercussionNoteOffResult :
    (drumming []).rhy = true ∧ drumOfChannel 11 = some .bass ∧ Memory.wf (drumming []).mirror ∧
      ((drumming []).voice 6).note = some 36 ∧ ((drumming []).voice 6).note ≠ some 37 := by decide
theorem witness_DrumTable : drumOfChannel 14 = some .cymbal ∧ drumOfChannel 10 = none := by decide
theorem witness_NoteCounterOverflowFaults :
    let s := { fresh [] with nc := 2 ^ 32 - 1 }
    let r := { rhythm [] with nc := 2 ^ 32 - 1 }
    s.nc = 2 ^ s.cfg.ncWidth - 1 ∧ Memory.wf s.mirror ∧ ¬ isPercussion s 0 ∧
      r.nc = 2 ^ r.cfg.ncWidth - 1 ∧ Memory.wf r.mirror ∧ r.rhy = true ∧
      drumOfChannel 12 = some .snare := by
  unfold isPercussion; decide
theorem witness_NoteOnThenOffFreesTheVoice_own :
    ¬ isPercussion (playing []) 0 ∧ findVoice (playing []) ((playing []).channel 0).instrument = 1 ∧
      (∀ i : VoiceId, i < 1 → ¬ isSounding (playing []) 0 61 i) ∧
      (playing []).nc ≠ 2 ^ (playing []).cfg.ncWidth - 1 := by
  unfold isPercussion isSounding; decide
theorem witness_NoteOnThenOffFreesTheVoice_lower :
    findVoice (playing []) ((playing []).channel 0).instrument = 1 ∧ (0 : VoiceId) < 1 ∧
      isSounding (playing []) 0 60 0 ∧ (∀ j : VoiceId, j < 0 → ¬ isSounding (playing []) 0 60 j) := by
  unfold isSounding; decide
theorem witness_NoteOnThenOffFreesTheVoice_drum :
    (rhythm []).rhy = true ∧ drumOfChannel 13 = some .tom := by decide
theorem witness_RhythmModeSeparatesVoices :
    (rhythm []).rhy = true ∧ Memory.wf (rhythm []).mirror ∧
      (after (.noteOn 10 60 1) (rhythm [])).isSome = true ∧
      (after (.noteOff 11 60 1) (rhythm [])).isSome = true ∧ (10 : Chan).val < 11 ∧ 11 ≤ (11 : Chan).val ∧
      6 ≤ (6 : VoiceId).val ∧ (5 : VoiceId).val < 6 := by decide
theorem witness_BindingWritesElevenRegisters : (0x12 : Nat) = (8 : VoiceId).val / 3 * 8 + (8 : VoiceId).val % 3 := by
  decide
theorem witness_PackPlacesTheFields : 7 < 8 ∧ 1023 < 1024 ∧ 8 ≤ 8 ∧ 9 < 10 := by decide
theorem witness_BlockTable : 127 < 128 ∧ blockOf 127 = 9 := by decide
/-- The corners of the domain of FnumIsTheReferenceFormula and FnumStaysInRange. -/
theorem witness_Fnum_domain :
    127 < 128 ∧ 16383 < 16384 ∧ (-127 : Int) ≤ -127 ∧ (127 : Int) ≤ 127 := by decide
theorem witness_PercLevel_domain : 1 ≤ 1 ∧ 127 ≤ 127 ∧ 82 ≤ 0x7B ∧ 0x7B < 0x7C := by decide
theorem witness_IsqrtIsTheIntegerRoot : 2 ^ 32 - 1 < 2 ^ 32 := by decide
theorem witness_ResetValues : (cfgOf [0x00]).tps ≠ 0 ∧ (cfgOf [0x00]).presetPercFreqs = false := by decide
theorem witness_PresetWritesFollowTheList :
    let cfg := { cfgOf [] with presetPercFreqs := true }
    cfg.tps ≠ 0 ∧ cfg.presetPercFreqs = true ∧
      resetEngine { Config.default with presetPercFreqs := true } =
        .ok (presetPercFreqs (State.initial { Config.default with presetPercFreqs := true })) :=
  ⟨by decide, by decide, rfl⟩
theorem witness_LoaderFillsTheBank :
    128 < 129 ∧ 0 + 16 * 0 + 11 ≤ (List.replicate 11 (0x01 : Byte)).length ∧
      (∀ j : Fin 11, (List.replicate 11 (0x01 : Byte))[0 + 16 * 0 + j.val]? = some 0x01) ∧
      (List.replicate 10 (0x01 : Byte)).length < 0 + 16 * 0 + 11 := by decide
/-- A version 0x0101 header with TPS = 96, zero instruments, and the music offset at its end. -/
def header : List Byte :=
  [0x43, 0x54, 0x4D, 0x46, 0x01, 0x01, 0x28, 0x00, 0x28, 0x00, 0x78, 0x00, 0x60, 0x00, 0, 0, 0, 0, 0, 0] ++
    List.replicate 16 0 ++ [0, 0, 0x78, 0]
theorem witness_HeaderChecksInOrder_passes :
    6 ≤ header.length ∧ header.take 4 = [0x43, 0x54, 0x4D, 0x46] ∧ fileU16 header 4 = 0x0101 ∧
      0x28 ≤ header.length := by decide
theorem witness_HeaderChecksInOrder_fails :
    (header.drop 1).take 4 ≠ [0x43, 0x54, 0x4D, 0x46] ∧
      fileU16 [0x43, 0x54, 0x4D, 0x46, 0x02, 0x01] 4 ≠ 0x0100 ∧
      fileU16 [0x43, 0x54, 0x4D, 0x46, 0x02, 0x01] 4 ≠ 0x0101 ∧
      (header.take 0x27).length < 0x28 ∧
      fileU16 [0x43, 0x54, 0x4D, 0x46, 0x00, 0x01] 4 = 0x0100 := by decide
theorem witness_BootReadsTheMusicRegion_refused :
    readHeader .default (header.take 0x27) = .error .truncatedInput ∧
      loadBank .default (fun _ => inst) header 0x28 129 = .error .instrumentCountRange ∧
      BitVec.ofNat 16 0 = (0 : BitVec 16) := ⟨by decide, rfl, by decide⟩
theorem witness_BootReadsTheMusicRegion_presets :
    ({ cfgOf [] with presetPercFreqs := true } : Config).presetPercFreqs = true ∧
      (cfgOf []).presetPercFreqs = false := by decide
theorem witness_BootReadsTheMusicRegion :
    readHeader .default header = .ok (headerFields .default header 0x0101) ∧
      loadBank .default (fun _ => inst) header 0x28 0 = .ok (fillBank (fun _ => inst) []) ∧
      BitVec.ofNat 16 (headerFields .default header 0x0101).ticksPerSecond ≠ 0 ∧
      (headerFields .default header 0x0101).instrumentCount = 0 :=
  ⟨by decide, rfl, by decide, by decide⟩

end Sys2Proof.Tests
end

/-! PROOFS. The two output ports of 20_memory: WriteReg and EmitDelay. -/

namespace Sys2Proof.Proofs.Ports

open Sys2Proof Sys2Proof.Machine

/-- R66, with no premise on the value the register held: the accessor never suppresses a write. -/
theorem mirrorAt_writeReg_same {s : State} (hwf : Memory.wf s.mirror) (r v : Byte) :
    (s.writeReg r v).mirrorAt r = v := by
  rw [State.mirrorAt_writeReg hwf, if_pos rfl]

theorem mirrorAt_writeReg_of_ne {s : State} (hwf : Memory.wf s.mirror) (r v : Byte) {q : Byte}
    (hq : q ≠ r) : (s.writeReg r v).mirrorAt q = s.mirrorAt q := by
  rw [State.mirrorAt_writeReg hwf, if_neg hq]

/-- WriteReg touches the mirror and the output port only. -/
theorem writeReg_frame (s : State) (r v : Byte) :
    s.writeReg r v = { s with mirror := (s.writeReg r v).mirror, out := (s.writeReg r v).out } := by
  apply State.ext_fields <;> simp

/-- EmitDelay touches the output port only. -/
theorem emitDelay_frame (s : State) (ms : BitVec 16) :
    s.emitDelay ms = { s with out := s.out ++ [.delay ms] } := by
  apply State.ext_fields <;> simp

/-- Settles O37: the value and frame rules of the mirror, one for each clause, and the frame of EmitDelay. -/
theorem portsEmitAndMirror : Obligations.PortsEmitAndMirror := by
  intro s r v ms hwf
  refine ⟨⟨?value, ?others, ?emitted, ?canonical, ?frame⟩, emitDelay_frame s ms⟩
  case value => exact mirrorAt_writeReg_same hwf r v
  case others => exact fun q hq => mirrorAt_writeReg_of_ne hwf r v hq
  case emitted => exact State.writeReg_out s r v
  case canonical => exact State.writeReg_wf hwf r v
  case frame => exact writeReg_frame s r v

end Sys2Proof.Proofs.Ports

/-! PROOFS. The message encoding of 30_encoding: NOTE_ON with velocity 0. -/

namespace Sys2Proof.Proofs.NoteMessages

open Sys2Proof Sys2Proof.Machine

/-- NOTE_OFF applies its rule whatever its velocity byte. -/
theorem exec_noteOff (c : Chan) (n vel : U7) (s : State) :
    exec (.noteOff c n vel) s = .next (noteOff c n s) := rfl

/-- The two branches of NOTE_ON, by its velocity. -/
theorem exec_noteOn (c : Chan) (n vel : U7) (s : State) :
    exec (.noteOn c n vel) s = if vel = 0 then .next (noteOff c n s) else .next (noteOn c n vel s) :=
  rfl

/-- R101: velocity 0 takes the NOTE_OFF branch of NOTE_ON. -/
theorem exec_noteOn_zero (c : Chan) (n : U7) (s : State) :
    exec (.noteOn c n 0) s = .next (noteOff c n s) := by
  rw [exec_noteOn, if_pos rfl]

/-- Settles O27: both messages apply the rule `noteOff` of their channel and note. -/
theorem velocityZeroIsNoteOff : Obligations.VelocityZeroIsNoteOff := by
  intro c n vel s
  calc exec (.noteOn c n 0) s
      _ = .next (noteOff c n s) := exec_noteOn_zero c n s
      _ = exec (.noteOff c n vel) s := (exec_noteOff c n vel s).symm

end Sys2Proof.Proofs.NoteMessages

/-! PROOFS. The induction over the parts of a tick: what reading bytes, storing the status, the two raises of
the reader and every instruction keep, every step keeps (41_event_reader R150). -/

namespace Sys2Proof.Proofs.TickInvariant

open Sys2Proof Sys2Proof.Machine

/-- `P` is kept by each thing a part of a tick can do. Bytes are read only where the stream still has them,
and only a status byte is stored in RS. -/
structure KeptByParts (P : State → Prop) : Prop where
  advance : ∀ s n, n ≤ s.remaining.length → P s → P (s.advance n)
  setRs : ∀ s b, b.msb = true → P s → P (s.setRs b)
  corruptStream : ∀ s, P s → P (s.terminate .corruptStream)
  badDataByte : ∀ s, P s → P (s.raiseFault .badDataByte)
  exec : ∀ i s t, exec i s = .next t → P s → P t

variable {P : State → Prop} {s t : State}

/-- A part and the rest of the tick after it: what both keep, they keep together. -/
theorem andThen_keeps {o : Outcome} {k : State → Outcome} (h : andThen o k = .next t)
    (ho : ∀ u, o = .next u → P u) (hk : ∀ u, P u → k u = .next t → P t) : P t := by
  obtain ⟨u, hu, ⟨-, hku⟩ | ⟨-, rfl⟩⟩ := andThen_eq_next.mp h
  · exact hk u (ho u hu) hku
  · exact ho t hu

theorem KeptByParts.dispatch (hP : KeptByParts P) {st : Byte}
    (h : Machine.dispatch st s = .next t) (hs : P s) : P t := by
  have hread := decodeBody_used st s.remaining
  unfold Machine.dispatch at h
  split at h
  case h_1 i used hdec =>
    rw [hdec] at hread
    exact hP.exec i _ t h (hP.advance s used hread hs)
  case h_2 used hdec =>
    rw [hdec] at hread
    cases h
    exact hP.corruptStream _ (hP.advance s used hread hs)
  case h_3 used hdec =>
    rw [hdec] at hread
    cases h
    exact hP.badDataByte _ (hP.advance s used hread hs)
  case h_4 =>
    cases h
    exact hP.corruptStream s hs

theorem KeptByParts.readMessage (hP : KeptByParts P) (h : Machine.readMessage s = .next t)
    (hs : P s) : P t := by
  unfold Machine.readMessage at h
  split at h
  case h_1 =>
    cases h
    exact hP.corruptStream s hs
  case h_2 b rest hrem =>
    have hfirst : P (s.advance 1) := hP.advance s 1 (by simp [hrem]) hs
    split at h
    case isTrue hmsb => exact hP.dispatch h (hP.setRs _ b hmsb hfirst)
    case isFalse =>
      exact andThen_keeps h (fun u hu => hP.exec _ _ u hu hfirst) fun u hu hk => hP.dispatch hk hu

theorem KeptByParts.readEvent (hP : KeptByParts P) (h : Machine.readEvent s = .next t)
    (hs : P s) : P t := by
  unfold Machine.readEvent at h
  split at h
  case h_1 used hdec =>
    cases h
    exact hP.corruptStream _ (hP.advance s used (decodeVlq_truncated hdec).le hs)
  case h_2 delta used hdec =>
    have hdelta : P (s.advance used) := hP.advance s used (decodeVlq_used hdec).2 hs
    exact andThen_keeps h (fun u hu => hP.exec _ _ u hu hdelta) fun u hu hk => hP.readMessage hk hu

/-- What every part of a tick keeps, a step keeps: a tick is one event or, where the engine is not Running,
nothing (R151). -/
theorem KeptByParts.step (hP : KeptByParts P) (h : Machine.step s = .next t) (hs : P s) : P t := by
  unfold Machine.step tick at h
  split_ifs at h
  · cases h
    exact hs
  · exact hP.readEvent h hs

end Sys2Proof.Proofs.TickInvariant

/-! PROOFS. What the configuration is to a run (00_scope R9): no instruction and no part of a tick writes it. -/

namespace Sys2Proof.Proofs.Configuration

open Sys2Proof Sys2Proof.Machine Sys2Proof.Proofs.TickInvariant

/-! ### The allocator -/

@[simp] theorem bindMel_cfg (v : VoiceId) (k : U7) (s : State) : (bindMel v k s).cfg = s.cfg := by
  rw [bindMel_frame]

@[simp] theorem bindPerc_cfg (d : Drum) (k : U7) (s : State) : (bindPerc d k s).cfg = s.cfg := by
  rw [bindPerc_frame]

@[simp] theorem rebind_cfg (v : VoiceId) (k : U7) (s : State) : (rebind v k s).cfg = s.cfg := by
  rw [rebind_frame]

@[simp] theorem writeLevel_cfg (d : Drum) (vel : U7) (s : State) :
    (writeLevel d vel s).cfg = s.cfg := by
  cases d <;> rfl

@[simp] theorem clearDrum_cfg (d : Drum) (s : State) : (clearDrum d s).cfg = s.cfg := rfl

@[simp] theorem setDrum_cfg (d : Drum) (s : State) : (setDrum d s).cfg = s.cfg := rfl

@[simp] theorem melNoteOn_cfg (c : Chan) (n : U7) (blk fn : Nat) (s : State) :
    (melNoteOn c n blk fn s).cfg = s.cfg := by
  unfold melNoteOn
  dsimp only
  split <;> simp

@[simp] theorem percNoteOn_cfg (d : Drum) (c : Chan) (n vel : U7) (blk fn : Nat) (s : State) :
    (percNoteOn d c n vel blk fn s).cfg = s.cfg := by
  unfold percNoteOn
  dsimp only
  split <;> simp

@[simp] theorem melNoteOff_cfg (c : Chan) (n : U7) (s : State) : (melNoteOff c n s).cfg = s.cfg := by
  unfold melNoteOff
  split <;> simp

@[simp] theorem percNoteOff_cfg (d : Drum) (n : U7) (s : State) :
    (percNoteOff d n s).cfg = s.cfg := by
  unfold percNoteOff
  split <;> simp

theorem noteOn_cfg (c : Chan) (n vel : U7) (s : State) : (noteOn c n vel s).cfg = s.cfg := by
  unfold noteOn
  dsimp only
  split <;> simp

theorem noteOff_cfg (c : Chan) (n : U7) (s : State) : (noteOff c n s).cfg = s.cfg := by
  unfold noteOff
  split <;> simp

/-! ### The instructions -/

theorem ctrlRhythm_cfg (val : U7) (s : State) : (ctrlRhythm val s).cfg = s.cfg := by
  unfold ctrlRhythm
  split <;> simp

theorem controllerEffect_cfg (num val : U7) (s : State) :
    (controllerEffect num val s).cfg = s.cfg := by
  unfold controllerEffect
  split_ifs
  · rfl
  · rfl
  · exact ctrlRhythm_cfg val s
  · rfl
  · rfl
  · rfl

theorem emitDelta_cfg (d : Nat) (s : State) : (emitDelta d s).cfg = s.cfg := by
  obtain ⟨ms, -, he⟩ | ⟨-, he⟩ := emitDelta_cases d s
  · rw [he, State.emitDelay_cfg]
  · rw [he, State.raiseFault_cfg]

/-- R135, per instruction. The rows without a lemma of their own are updates of one other field. -/
theorem exec_cfg {i : Instr} {s t : State} (h : exec i s = .next t) : t.cfg = s.cfg := by
  cases i
  case deltaTime d =>
    simp only [exec, execDeltaTime] at h
    split_ifs at h <;> cases h
    · rfl
    · exact emitDelta_cfg d s
  case noteOff c n vel => cases h; exact noteOff_cfg c n s
  case noteOn c n vel =>
    simp only [exec, execNoteOn] at h
    split_ifs at h <;> cases h
    · exact noteOff_cfg c n s
    · exact noteOn_cfg c n vel s
  case controller c num val => cases h; exact controllerEffect_cfg num val s
  case ctrlRhythm c val => cases h; exact ctrlRhythm_cfg val s
  case runningStatus x =>
    simp only [exec, execRunningStatus] at h
    split_ifs at h <;> cases h <;> simp
  all_goals cases h; rfl

/-! ### The tick -/

/-- Reading bytes, storing the status and raising leave the configuration as it is. -/
theorem cfg_keptByParts (c : Config) : KeptByParts (fun s => s.cfg = c) where
  advance _ _ _ hs := hs
  setRs _ _ _ hs := hs
  corruptStream _ hs := hs
  badDataByte _ hs := hs
  exec _ _ _ h hs := (exec_cfg h).trans hs

/-- Settles O16: the configuration of the state before the tick is kept by every part of the tick. -/
theorem stepKeepsConfiguration : Obligations.StepKeepsConfiguration :=
  fun s _ h => (cfg_keptByParts s.cfg).step h rfl

end Sys2Proof.Proofs.Configuration

/-! PROOFS. The instrument-bank load of 40_instrument_bank (R131, R132, R134). -/

namespace Sys2Proof.Proofs.BankLoad

open Sys2Proof Sys2Proof.Machine

/-! ### Records -/

/-- A byte that is present is the byte the loader reads. -/
theorem fileByte_of_getElem? {file : List Byte} {a : Nat} {b : Byte} (h : file[a]? = some b) :
    fileByte file a = b := by
  simp [fileByte, List.getD_eq_getElem?_getD, h]

/-- R132: each field of a record that is present is the byte the layout names for it. -/
theorem decodeRecord_of_bytes (layout : RecordLayout) {file : List Byte} {a : Nat} {r : Fin 11 → Byte}
    (h : ∀ j, file[a + j.val]? = some (r j)) :
    decodeRecord layout file a =
      ⟨⟨r layout.modB20, r layout.modB40, r layout.modB60, r layout.modB80, r layout.modBE0⟩,
        ⟨r layout.carB20, r layout.carB40, r layout.carB60, r layout.carB80, r layout.carBE0⟩,
        r layout.conn⟩ := by
  have hbyte : ∀ j : Fin 11, fileByte file (a + j.val) = r j := fun j => fileByte_of_getElem? (h j)
  simp only [decodeRecord, hbyte]

variable (layout : RecordLayout) (file : List Byte)

/-- R131: the load of the records fails exactly where one of them is cut short. -/
theorem loadRecords_eq_none_iff (n a : Nat) :
    loadRecords layout file n a = none ↔ ∃ k, k < n ∧ file.length < a + 16 * k + 11 := by
  induction n generalizing a with
  | zero => simp [loadRecords]
  | succ n ih =>
    rw [loadRecords]
    split_ifs with hcut
    · exact iff_of_true rfl ⟨0, n.succ_pos, hcut⟩
    · rw [Option.map_eq_none_iff, ih]
      constructor
      · rintro ⟨k, hk, hlen⟩
        exact ⟨k + 1, by omega, by omega⟩
      · rintro ⟨_ | k, hk, hlen⟩
        · exact absurd hlen hcut
        · exact ⟨k, by omega, by omega⟩

/-- R131: loaded records stand 16 bytes apart. -/
theorem loadRecords_getElem? {n a : Nat} {declared : List Instrument}
    (h : loadRecords layout file n a = some declared) (k : Nat) :
    declared[k]? = if k < n then some (decodeRecord layout file (a + 16 * k)) else none := by
  induction n generalizing a declared k with
  | zero =>
    cases h
    simp
  | succ n ih =>
    rw [loadRecords] at h
    split_ifs at h
    obtain ⟨rest, hrest, rfl⟩ := Option.map_eq_some_iff.mp h
    cases k with
    | zero => simp
    | succ k =>
      rw [List.getElem?_cons_succ, ih hrest, show a + 16 + 16 * k = a + 16 * (k + 1) by omega]
      simp only [Nat.add_lt_add_iff_right]

/-! ### The bank -/

/-- R134: a slot is its declared record or, where there is none, its default patch. -/
theorem fillBank_getElem (patches : Fin 16 → Instrument) (declared : List Instrument) (k : Fin 128) :
    (fillBank patches declared)[k] =
      (declared[k.val]?).getD (patches ⟨k.val % 16, Nat.mod_lt _ (by decide)⟩) := by
  simp [fillBank]

variable (patches : Fin 16 → Instrument) {a count : Nat}

theorem loadBank_tooMany (h : 128 < count) :
    loadBank layout patches file a count = .error .instrumentCountRange := by
  rw [loadBank, if_pos h]

theorem loadBank_of_loadRecords (hcount : count ≤ 128) {declared : List Instrument}
    (h : loadRecords layout file count a = some declared) :
    loadBank layout patches file a count = .ok (fillBank patches declared) := by
  rw [loadBank, if_neg (by omega), h]

theorem loadBank_truncated (hcount : count ≤ 128)
    (h : ∃ k, k < count ∧ file.length < a + 16 * k + 11) :
    loadBank layout patches file a count = .error .truncatedInput := by
  rw [loadBank, if_neg (by omega), (loadRecords_eq_none_iff layout file count a).mpr h]

/-- With every record present the load succeeds, and gives each slot below the count its record and each
other slot its default patch. -/
theorem loadBank_slots (hcount : count ≤ 128)
    (hpresent : ∀ k, k < count → a + 16 * k + 11 ≤ file.length) :
    ∃ bank, loadBank layout patches file a count = .ok bank ∧ ∀ k : Fin 128,
      bank[k] = if k.val < count then decodeRecord layout file (a + 16 * k.val)
        else patches ⟨k.val % 16, Nat.mod_lt _ (by decide)⟩ := by
  have hsome : loadRecords layout file count a ≠ none := by
    rw [Ne, loadRecords_eq_none_iff]
    rintro ⟨k, hk, hcut⟩
    exact absurd (hpresent k hk) (by omega)
  obtain ⟨declared, hload⟩ := Option.ne_none_iff_exists'.mp hsome
  refine ⟨_, loadBank_of_loadRecords layout file patches hcount hload, fun k => ?_⟩
  rw [fillBank_getElem, loadRecords_getElem? layout file hload]
  split_ifs <;> rfl

/-- Settles O58: the two refusals and the slots of a successful load, each record read through its layout. -/
theorem loaderFillsTheBank : Obligations.LoaderFillsTheBank := by
  intro layout patches file a count
  refine ⟨?tooMany, ?loaded, ?truncated⟩
  case tooMany => exact loadBank_tooMany layout file patches
  case truncated => exact loadBank_truncated layout file patches
  case loaded =>
    intro hcount hpresent
    obtain ⟨bank, hload, hslot⟩ := loadBank_slots layout file patches hcount hpresent
    refine ⟨bank, hload, fun k => ⟨fun hk r hr => ?declared, fun hk => ?default⟩⟩
    case declared =>
      have hrecord := (hslot k).trans ((if_pos hk).trans (decodeRecord_of_bytes layout hr))
      refine ⟨hrecord, ?_⟩
      rintro rfl
      exact hrecord
    case default => rw [hslot, if_neg (by omega)]

end Sys2Proof.Proofs.BankLoad

/-! PROOFS. The tick of an engine that is not Running (41_event_reader R151). -/

namespace Sys2Proof.Proofs.StoppedEngine

open Sys2Proof Sys2Proof.Machine

variable {s : State}

/-! ### The status read from RUN -/

theorem tickResult_of_ended {r : EndReason} (h : s.run = .ended r) : s.tickResult = .ended r := by
  rw [State.tickResult, h]

theorem tickResult_of_faulted {c : FaultCode} (h : s.run = .faulted c) :
    s.tickResult = .faultStop c := by
  rw [State.tickResult, h]

/-! ### The tick -/

/-- Settles O9: the step of a stopped engine is the state itself, whose status is the one RUN holds. -/
theorem stoppedEngineDoesNothing : Obligations.StoppedEngineDoesNothing :=
  fun _ hstopped =>
    ⟨step_stopped hstopped, fun _ => tickResult_of_ended, fun _ => tickResult_of_faulted⟩

end Sys2Proof.Proofs.StoppedEngine

/-! PROOFS. The controller dispatch of 43_controllers (R200, R201). -/

namespace Sys2Proof.Proofs.ControllerDispatch

open Sys2Proof Sys2Proof.Machine

/-! ### What a controller leaves unchanged -/

/-- CTRL_RHYTHM touches RHY, the mirror and the output port only. -/
theorem ctrlRhythm_frame (val : U7) (s : State) :
    ctrlRhythm val s = { s with
      rhy := (ctrlRhythm val s).rhy
      mirror := (ctrlRhythm val s).mirror
      out := (ctrlRhythm val s).out } := by
  unfold ctrlRhythm
  split <;> rfl

/-- R201: a controller touches RHY, TR, the mirror and the two ports only, whatever its number. -/
theorem controllerEffect_frame (num val : U7) (s : State) :
    controllerEffect num val s = { s with
      rhy := (controllerEffect num val s).rhy
      tr := (controllerEffect num val s).tr
      mirror := (controllerEffect num val s).mirror
      out := (controllerEffect num val s).out
      log := (controllerEffect num val s).log } := by
  unfold controllerEffect
  split_ifs
  · rfl
  · rfl
  · rw [ctrlRhythm_frame]
  · rfl
  · rfl
  · rfl

theorem controllerEffect_ch (num val : U7) (s : State) : (controllerEffect num val s).ch = s.ch := by
  rw [controllerEffect_frame]

theorem controllerEffect_v (num val : U7) (s : State) : (controllerEffect num val s).v = s.v := by
  rw [controllerEffect_frame]

theorem controllerEffect_run (num val : U7) (s : State) :
    (controllerEffect num val s).run = s.run := by
  rw [controllerEffect_frame]

/-! ### The row of a number -/

/-- The sub-map of the decoder and the dispatch of the handler agree: on any channel, the CTRL_* row that
R98 gives a number has the effect of that number. -/
theorem exec_controllerRow (c : Chan) (num val : U7) (s : State) :
    exec (controllerRow c num val) s = .next (controllerEffect num val s) := by
  unfold controllerRow controllerEffect
  split_ifs <;> rfl

theorem controllerRow_of_not_named (c : Chan) (val : U7) {num : U7} (h : num ∉ namedControllers) :
    controllerRow c num val = .ctrlOther c num val := by
  simp only [namedControllers, List.mem_cons, List.not_mem_nil, or_false, not_or] at h
  obtain ⟨hamvib, hmarker, hrhythm, hup, hdown⟩ := h
  rw [controllerRow, if_neg hamvib, if_neg hmarker, if_neg hrhythm, if_neg hup, if_neg hdown]

/-- Settles O28: CONTROLLER's next state is the effect of its number, which the frame rule bounds and the
row of the number shares. `controllerRow` of a named number evaluates to that number's instruction. -/
theorem controllerDispatches : Obligations.ControllerDispatches := by
  intro c c' num val s
  refine ⟨controllerEffect num val s, rfl, controllerEffect_ch num val s, controllerEffect_v num val s,
    controllerEffect_run num val s, ?amvib, ?marker, ?rhythm, ?up, ?down, ?other⟩
  case amvib => rintro rfl; exact exec_controllerRow c' 0x63 val s
  case marker => rintro rfl; exact exec_controllerRow c' 0x66 val s
  case rhythm => rintro rfl; exact exec_controllerRow c' 0x67 val s
  case up => rintro rfl; exact exec_controllerRow c' 0x68 val s
  case down => rintro rfl; exact exec_controllerRow c' 0x69 val s
  case other =>
    intro hother
    rw [← controllerRow_of_not_named c' val hother]
    exact exec_controllerRow c' num val s

end Sys2Proof.Proofs.ControllerDispatch

/-! PROOFS. The system messages of 44_system_messages: the rows without payload or effect. -/

namespace Sys2Proof.Proofs.SystemMessages

open Sys2Proof Sys2Proof.Machine

/-- R99: a status 0xF0..0xFF is decoded by the system-message map on its low four bits. -/
theorem decodeBody_system {st : Byte} (hhigh : st.toNat / 16 = 0xF) (rest : List Byte) :
    decodeBody st rest = decodeSystem (st.toNat % 16) rest := by
  simp only [decodeBody, hhigh]

/-! ### The messages without effect (R222, R224, R226, R227, R230) -/

theorem exec_tuneRequest (s : State) : exec .tuneRequest s = .next s := rfl

theorem exec_timingClock (s : State) : exec .timingClock s = .next s := rfl

theorem exec_start (s : State) : exec .start s = .next s := rfl

theorem exec_continuePlay (s : State) : exec .continuePlay s = .next s := rfl

theorem exec_activeSensing (s : State) : exec .activeSensing s = .next s := rfl

/-- Settles O33: each status goes to the system-message map, whose entry for its low four bits names the
instruction with no byte read, and that instruction has no effect. -/
theorem systemNoOpsDoNothing : Obligations.SystemNoOpsDoNothing := by
  intro rest s
  refine ⟨⟨?tune, exec_tuneRequest s⟩, ⟨?clock, exec_timingClock s⟩, ⟨?start, exec_start s⟩,
    ⟨?resume, exec_continuePlay s⟩, ⟨?sensing, exec_activeSensing s⟩⟩
  case tune => exact decodeBody_system (st := 0xF6) (by decide) rest
  case clock => exact decodeBody_system (st := 0xF8) (by decide) rest
  case start => exact decodeBody_system (st := 0xFA) (by decide) rest
  case resume => exact decodeBody_system (st := 0xFB) (by decide) rest
  case sensing => exact decodeBody_system (st := 0xFE) (by decide) rest

end Sys2Proof.Proofs.SystemMessages

/-! PROOFS. The two note-offs of 45_voice_allocator (R245, R254): the release of a voice, and when each path
makes it. -/

namespace Sys2Proof.Proofs.NoteOff

open Sys2Proof Sys2Proof.Machine Sys2Proof.Proofs.Ports Sys2Proof.Proofs.NoteMessages

/-! ### Releasing a voice -/

/-- What both note-offs do to the voice they find: it is freed, and bits of a register are cleared with one
write. -/
def releaseVoice (s : State) (i : VoiceId) (r bits : Byte) : State :=
  (s.freeVoiceAt i).writeReg r (clearBits (s.mirrorAt r) bits)

section Release

variable {s : State} (i : VoiceId) (r bits : Byte)

theorem voice_releaseVoice_same :
    (releaseVoice s i r bits).voice i = { s.voice i with noteStart := 0 } := by
  rw [releaseVoice, State.writeReg_voice, State.voice_freeVoiceAt, if_pos rfl]

theorem voice_releaseVoice_of_ne {j : VoiceId} (hj : j ≠ i) :
    (releaseVoice s i r bits).voice j = s.voice j := by
  rw [releaseVoice, State.writeReg_voice, State.voice_freeVoiceAt, if_neg hj]

theorem mirrorAt_releaseVoice_same (hwf : Memory.wf s.mirror) :
    (releaseVoice s i r bits).mirrorAt r = clearBits (s.mirrorAt r) bits :=
  mirrorAt_writeReg_same (s := s.freeVoiceAt i) hwf r _

theorem mirrorAt_releaseVoice_of_ne (hwf : Memory.wf s.mirror) {q : Byte} (hq : q ≠ r) :
    (releaseVoice s i r bits).mirrorAt q = s.mirrorAt q :=
  mirrorAt_writeReg_of_ne (s := s.freeVoiceAt i) hwf r _ hq

/-- The one item emitted carries the value the mirror then holds. -/
theorem releaseVoice_out (hwf : Memory.wf s.mirror) :
    (releaseVoice s i r bits).out =
      s.out ++ [.write r ((releaseVoice s i r bits).mirrorAt r)] := by
  rw [mirrorAt_releaseVoice_same i r bits hwf, releaseVoice, State.writeReg_out, State.freeVoiceAt_out]

/-- A release touches V, the mirror and the output port only. -/
theorem releaseVoice_frame : releaseVoice s i r bits = { s with
    v := (releaseVoice s i r bits).v
    mirror := (releaseVoice s i r bits).mirror
    out := (releaseVoice s i r bits).out } := by
  apply State.ext_fields <;> simp [releaseVoice]

end Release

/-! ### The key-on bit -/

theorem keyOn_getLsbD (k : Nat) : keyOn.getLsbD k = decide (k = 5) := by
  rw [show keyOn = BitVec.twoPow 8 5 from rfl, BitVec.getLsbD_twoPow]
  simp [eq_comm]

theorem clearBits_keyOn_getLsbD_five (x : Byte) : (clearBits x keyOn).getLsbD 5 = false := by
  simp [clearBits, keyOn_getLsbD]

theorem clearBits_keyOn_getLsbD_of_ne (x : Byte) {k : Nat} (hk : k ≠ 5) :
    (clearBits x keyOn).getLsbD k = x.getLsbD k := by
  rw [clearBits, BitVec.getLsbD_and, BitVec.getLsbD_not, keyOn_getLsbD, decide_eq_false hk, Bool.not_false,
    Bool.and_true]
  by_cases hwidth : k < 8
  · simp [hwidth]
  · simp [hwidth, BitVec.getLsbD_of_ge x k (by omega)]

/-! ### The path of a note-off -/

variable {s : State} {c : Chan} {n : U7}

theorem noteOff_melodic (h : ¬ isPercussion s c) : noteOff c n s = melNoteOff c n s := by
  rw [noteOff, (percDrum_eq_none s c).mpr h]

theorem noteOff_percussion {d : Drum} (hrhy : s.rhy = true) (hd : drumOfChannel c = some d) :
    noteOff c n s = percNoteOff d n s := by
  rw [noteOff, percDrum, if_pos hrhy, hd]

/-! ### The melodic path -/

theorem sounds_iff {i : VoiceId} : s.sounds c n i = true ↔ isSounding s c n i := decide_eq_true_iff

/-- R245: the lowest melodic voice that sounds the note is released, by the key-on bit of its 0xB0
register. -/
theorem melNoteOff_of_lowest {i : VoiceId} (hmel : isMelodicVoice s i) (hsound : isSounding s c n i)
    (hlow : ∀ j, j < i → ¬ isSounding s c n j) :
    melNoteOff c n s = releaseVoice s i (regB0 i) keyOn := by
  have hfind : (melodicVoices s.rhy).find? (s.sounds c n) = some i :=
    (find_sounding s c n i).mpr ⟨hmel, sounds_iff.mpr hsound, fun j hj =>
      Bool.eq_false_iff.mpr fun hs => hlow j hj (sounds_iff.mp hs)⟩
  rw [melNoteOff, hfind, releaseVoice]

theorem melNoteOff_of_silent (hsilent : ∀ i, isMelodicVoice s i → ¬ isSounding s c n i) :
    melNoteOff c n s = s.warn .noteOffUnmatched := by
  have hfind : (melodicVoices s.rhy).find? (s.sounds c n) = none :=
    List.find?_eq_none.mpr fun i hi hs =>
      hsilent i ((mem_melodicVoices s.rhy i).mp hi) (sounds_iff.mp hs)
  rw [melNoteOff, hfind]

/-- Settles O40: the voice the scan finds is released, its register bit read off KEYON; a scan that finds
none only warns. -/
theorem melodicNoteOffResult : Obligations.MelodicNoteOffResult := by
  intro c n vel s hpath hwf
  rw [exec_noteOff, noteOff_melodic hpath]
  refine ⟨fun i hmel hsound hlow => ?released, fun hsilent => ?unmatched⟩
  case released =>
    rw [melNoteOff_of_lowest hmel hsound hlow]
    refine ⟨_, rfl, voice_releaseVoice_same .., fun j => voice_releaseVoice_of_ne i _ _,
      releaseVoice_out i _ _ hwf, ?cleared, fun k hk => ?kept,
      fun r => mirrorAt_releaseVoice_of_ne i _ _ hwf, releaseVoice_frame ..⟩
    case cleared =>
      rw [mirrorAt_releaseVoice_same i _ _ hwf]
      exact clearBits_keyOn_getLsbD_five _
    case kept =>
      rw [mirrorAt_releaseVoice_same i _ _ hwf]
      exact clearBits_keyOn_getLsbD_of_ne _ hk
  case unmatched => rw [melNoteOff_of_silent hsilent, State.warn]

/-! ### The percussion path -/

/-- R254: the recorded note alone decides; the voice is released by the drum's bit of 0xBD. The model writes
first and frees second, which touch different fields. -/
theorem percNoteOff_of_recorded {d : Drum} (h : (s.voice d.voice).note = some n) :
    percNoteOff d n s = releaseVoice s d.voice regBD d.bit := by
  rw [percNoteOff, if_pos h]
  rfl

theorem percNoteOff_of_stale {d : Drum} (h : (s.voice d.voice).note ≠ some n) :
    percNoteOff d n s = s.warn .percNoteOffStale := by
  rw [percNoteOff, if_neg h]

/-- Settles O42: the drum's fixed voice is released where it records the note, and else only a warning is
logged. -/
theorem percussionNoteOffResult : Obligations.PercussionNoteOffResult := by
  intro c n vel s d hrhy hd hwf
  rw [exec_noteOff, noteOff_percussion hrhy hd]
  refine ⟨fun hnote => ?released, fun hnote => ?stale⟩
  case released =>
    rw [percNoteOff_of_recorded hnote]
    exact ⟨_, rfl, voice_releaseVoice_same .., fun j => voice_releaseVoice_of_ne _ _ _,
      mirrorAt_releaseVoice_same _ regBD _ hwf, releaseVoice_out _ regBD _ hwf,
      fun r => mirrorAt_releaseVoice_of_ne _ regBD _ hwf, releaseVoice_frame ..⟩
  case stale => rw [percNoteOff_of_stale hnote, State.warn]

end Sys2Proof.Proofs.NoteOff

/-! PROOFS. The block and the F-number of 46_frequency (R280, R282, R283): what brackets the search's answer,
and the values of the reference formula. -/

namespace Sys2Proof.Proofs.Frequency

open Sys2Proof Sys2Proof.Machine

/-! ### The block -/

theorem blockOf_of_lt {n : Nat} (h : n < 24) : blockOf n = n / 12 := by
  rw [blockOf, if_neg (by omega)]

theorem blockOf_of_le {n : Nat} (h : 24 ≤ n) : blockOf n = n / 12 - 1 := by
  rw [blockOf, if_pos (by omega)]

/-- Settles O49: the block is a function of the octave, and there are eleven octaves. -/
theorem blockTable : Obligations.BlockTable := by
  intro n hn
  have hoctave : n / 12 < 11 := by omega
  have htable : ∀ k < 11, (if 1 < k then k - 1 else k) = [0, 1, 1, 2, 3, 4, 5, 6, 7, 8, 9].getD k 0 := by
    decide
  exact htable _ hoctave

/-! ### Register packing -/

/-- R281: the packings differ on blocks 8 and up only. -/
theorem packKeyBlock_of_lt (p : BlockPacking) {blk : Nat} (h : blk < 8) (fn : Nat) (key : Bool) :
    packKeyBlock p blk fn key = packKeyBlock .truncate8 blk fn key := by
  cases p with
  | truncate8 => rfl
  | mask3 => simp only [packKeyBlock, packedBlock, Nat.mod_eq_of_lt h]

/-! ### Comparing an F-number with the formula -/

section AtMost

variable {p p' q k f f' : Nat}

theorem fnumAtMost_iff :
    fnumAtMost p q f = true ↔ ((2 * f - 1) * 25000) ^ q ≤ 440 ^ q * 2 ^ p :=
  decide_eq_true_iff

/-- The exponent is a fraction of an octave: common factors of `p` and `q` do not matter. -/
theorem fnumAtMost_mul (hk : k ≠ 0) : fnumAtMost (p * k) (q * k) f = fnumAtMost p q f := by
  rw [Bool.eq_iff_iff, fnumAtMost_iff, fnumAtMost_iff, pow_mul, pow_mul, pow_mul, ← mul_pow,
    Nat.pow_le_pow_iff_left hk]

theorem fnumAtMost_mono_exponent (hp : p ≤ p') (h : fnumAtMost p q f = true) :
    fnumAtMost p' q f = true := by
  rw [fnumAtMost_iff] at h ⊢
  exact h.trans (Nat.mul_le_mul_left _ (Nat.pow_le_pow_right two_pos hp))

theorem fnumAtMost_of_le (hf : f ≤ f') (h : fnumAtMost p q f' = true) : fnumAtMost p q f = true := by
  rw [fnumAtMost_iff] at h ⊢
  exact (Nat.pow_le_pow_left (Nat.mul_le_mul_right _ (by omega)) q).trans h

theorem fnumAtMost_zero (hq : q ≠ 0) : fnumAtMost p q 0 = true := by
  rw [fnumAtMost_iff, Nat.mul_zero, Nat.zero_sub, Nat.zero_mul, zero_pow hq]
  exact Nat.zero_le _

/-! 1/(q * k) octave is the factor 2^(1/k) on x^q, and that is at most `c / d` where 2 * d^k ≤ c^k. So a comparison
that holds at p/q octaves with the margin `c / d` holds 1/(q * k) octave below too, and one that fails with that
margin fails 1/(q * k) octave above too. -/

theorem fnumAtMost_below (c d : Nat) (hd : 0 < d) (hroot : 2 * d ^ k ≤ c ^ k) (hp : 0 < p * k)
    (h : ((2 * f - 1) * 25000) ^ q * c ≤ 440 ^ q * 2 ^ p * d) :
    fnumAtMost (p * k - 1) (q * k) f = true := by
  rw [fnumAtMost_iff]
  have hscaled : ((2 * f - 1) * 25000) ^ (q * k) * (2 * d ^ k) ≤
      440 ^ (q * k) * 2 ^ (p * k - 1) * (2 * d ^ k) :=
    calc ((2 * f - 1) * 25000) ^ (q * k) * (2 * d ^ k)
        ≤ ((2 * f - 1) * 25000) ^ (q * k) * c ^ k := Nat.mul_le_mul_left _ hroot
      _ = (((2 * f - 1) * 25000) ^ q * c) ^ k := by rw [pow_mul, ← mul_pow]
      _ ≤ (440 ^ q * 2 ^ p * d) ^ k := Nat.pow_le_pow_left h k
      _ = 440 ^ (q * k) * 2 ^ (p * k) * d ^ k := by rw [mul_pow, mul_pow, ← pow_mul, ← pow_mul]
      _ = 440 ^ (q * k) * 2 ^ (p * k - 1) * (2 * d ^ k) := by
        rw [← Nat.two_pow_pred_mul_two hp]
        ring
  exact Nat.le_of_mul_le_mul_right hscaled (by positivity)

theorem not_fnumAtMost_above (c d : Nat) (hk : k ≠ 0) (hroot : 2 * d ^ k ≤ c ^ k)
    (h : 440 ^ q * 2 ^ p * c < ((2 * f - 1) * 25000) ^ q * d) :
    fnumAtMost (p * k + 1) (q * k) f = false := by
  rw [Bool.eq_false_iff, Ne, fnumAtMost_iff, not_le]
  have hscaled : 440 ^ (q * k) * 2 ^ (p * k + 1) * d ^ k < ((2 * f - 1) * 25000) ^ (q * k) * d ^ k :=
    calc 440 ^ (q * k) * 2 ^ (p * k + 1) * d ^ k
        = 440 ^ (q * k) * 2 ^ (p * k) * (2 * d ^ k) := by ring
      _ ≤ 440 ^ (q * k) * 2 ^ (p * k) * c ^ k := Nat.mul_le_mul_left _ hroot
      _ = (440 ^ q * 2 ^ p * c) ^ k := by rw [mul_pow, mul_pow, ← pow_mul, ← pow_mul]
      _ < (((2 * f - 1) * 25000) ^ q * d) ^ k := Nat.pow_lt_pow_left h hk
      _ = ((2 * f - 1) * 25000) ^ (q * k) * d ^ k := by rw [pow_mul, ← mul_pow]
  exact Nat.lt_of_mul_lt_mul_right hscaled

end AtMost

/-! ### The reference formula -/

section Reference

variable {n bend : Nat} {tr : Int} {f : Nat}

/-- The search compares as the formula does at the exponent over 98304, which it only reduces. -/
theorem fnumReference_eq_searchMax :
    fnumReference n bend tr = searchMax (fnumAtMost (fnumExponent n bend tr).toNat 98304) 11 0 := by
  set p := (fnumExponent n bend tr).toNat with hp
  have hg : Nat.gcd p 98304 ≠ 0 := Nat.gcd_ne_zero_right (by decide)
  have hreduce : fnumAtMost (p / Nat.gcd p 98304) (98304 / Nat.gcd p 98304) = fnumAtMost p 98304 := by
    funext f
    rw [← fnumAtMost_mul hg, Nat.div_mul_cancel (Nat.gcd_dvd_left ..),
      Nat.div_mul_cancel (Nat.gcd_dvd_right ..)]
  rw [← hreduce]
  rfl

/-- The reference F-number is the one 11-bit number that is at most x + 1/2 while its successor is not. -/
theorem fnumReference_eq (hf : f < 2 ^ 11)
    (hle : fnumAtMost (fnumExponent n bend tr).toNat 98304 f = true)
    (hgt : fnumAtMost (fnumExponent n bend tr).toNat 98304 (f + 1) = false) :
    fnumReference n bend tr = f := by
  rw [fnumReference_eq_searchMax]
  set ok := fnumAtMost (fnumExponent n bend tr).toNat 98304
  have hbelow : ∀ g, ok g = true → g ≤ f := fun g hg => by
    by_contra hlt
    exact Bool.false_ne_true (hgt.symm.trans (fnumAtMost_of_le (by omega) hg))
  have htop : ok (0 + 2 ^ 11) = false :=
    Bool.eq_false_iff.mpr fun h => absurd (hbelow _ h) (by omega)
  obtain ⟨hok, hnext, -, -⟩ := searchMax_spec ok 11 0 (fnumAtMost_zero (by decide)) htop
  refine le_antisymm (hbelow _ hok) ?_
  by_contra hlt
  exact Bool.false_ne_true (hnext.symm.trans (fnumAtMost_of_le (by omega) hle))

/-- The reference F-number from a coarser exponent on either side, in units of 1/q octave: the formula is
increasing in the exponent. -/
theorem fnumReference_eq_of_bracket (k lo hi q : Nat) (hk : q * k = 98304)
    (hlo : (lo * k : Nat) ≤ fnumExponent n bend tr) (hhi : fnumExponent n bend tr ≤ (hi * k : Nat))
    (hf : f < 2 ^ 11) (hle : fnumAtMost lo q f = true) (hgt : fnumAtMost hi q (f + 1) = false) :
    fnumReference n bend tr = f := by
  have hk0 : k ≠ 0 := by rintro rfl; omega
  rw [← fnumAtMost_mul hk0, hk] at hle hgt
  refine fnumReference_eq hf (fnumAtMost_mono_exponent (by omega) hle) (Bool.eq_false_iff.mpr fun h => ?_)
  exact Bool.false_ne_true (hgt.symm.trans (fnumAtMost_mono_exponent (by omega) h))

end Reference

/-! ### The values of R283 -/

/-- At centre bend and transpose 0 the exponent, in semitones, depends only on the note's place in its
octave: up to note 23 the block is the octave, from 24 up it lags by one. -/
theorem fnumExponent_centre_of_lt {n : Nat} (h : n < 24) :
    fnumExponent n 8192 0 = ((n % 12 + 171) * 8192 : Nat) := by
  rw [fnumExponent, blockOf_of_lt h]
  omega

theorem fnumExponent_centre_of_le {n : Nat} (h : 24 ≤ n) :
    fnumExponent n 8192 0 = ((n % 12 + 183) * 8192 : Nat) := by
  rw [fnumExponent, blockOf_of_le h]
  omega

/-- Whether `row` holds the F-number of each of the twelve semitones from `base` up. -/
def IsFnumRow (base : Nat) (row : List Nat) : Prop :=
  ∀ r < 12, row.getD r 0 < 2 ^ 11 ∧ fnumAtMost (r + base) 12 (row.getD r 0) = true ∧
    fnumAtMost (r + base) 12 (row.getD r 0 + 1) = false

theorem isFnumRow_low : IsFnumRow 171 [171, 182, 192, 204, 216, 229, 242, 257, 272, 288, 306, 324] := by
  unfold IsFnumRow
  decide

theorem isFnumRow_high : IsFnumRow 183 [343, 363, 385, 408, 432, 458, 485, 514, 544, 577, 611, 647] := by
  unfold IsFnumRow
  decide

theorem fnumReference_of_row {n base : Nat} {row : List Nat} (hrow : IsFnumRow base row)
    (hexp : fnumExponent n 8192 0 = ((n % 12 + base) * 8192 : Nat)) :
    fnumReference n 8192 0 = row.getD (n % 12) 0 := by
  obtain ⟨hf, hle, hgt⟩ := hrow (n % 12) (Nat.mod_lt n (by decide))
  exact fnumReference_eq_of_bracket 8192 _ _ 12 rfl hexp.ge hexp.le hf hle hgt

theorem fnumReference_centre (n : Nat) : fnumReference n 8192 0 =
    (if n < 24 then [171, 182, 192, 204, 216, 229, 242, 257, 272, 288, 306, 324]
      else [343, 363, 385, 408, 432, 458, 485, 514, 544, 577, 611, 647]).getD (n % 12) 0 := by
  by_cases h : n < 24
  · rw [if_pos h]
    exact fnumReference_of_row isFnumRow_low (fnumExponent_centre_of_lt h)
  · rw [if_neg h]
    exact fnumReference_of_row isFnumRow_high (fnumExponent_centre_of_le (by omega))

/-! Off centre, R283's exponents for note 60 (183 semitones) lie half way to a neighbour, 1/24 octave from both, or
within 1/384 octave of a neighbour. On x^12 these distances are the factors 2^(1/2) and 2^(1/32). -/

/-- 2^(1/2) ≤ 17/12. -/
theorem sqrt_two_le_ratio : 2 * 12 ^ 2 ≤ 17 ^ 2 := by decide

/-- 2^(1/32) ≤ 46/45. -/
theorem root_two_le_ratio : 2 * 45 ^ 32 ≤ 46 ^ 32 := by decide

/-- Note 60 raised by nearly a semitone rounds as note 61 does. -/
theorem fnumReference_60_of_near_61 {bend : Nat} {tr : Int}
    (hlo : 184 * 8192 - 256 ≤ fnumExponent 60 bend tr) (hhi : fnumExponent 60 bend tr ≤ 184 * 8192) :
    fnumReference 60 bend tr = 363 := by
  have hle : fnumAtMost (184 * 32 - 1) (12 * 32) 363 = true :=
    fnumAtMost_below 46 45 (by decide) root_two_le_ratio (by decide) (by decide)
  have hgt : fnumAtMost (184 * 32) (12 * 32) 364 = false := by
    rw [fnumAtMost_mul (by decide)]
    decide
  exact fnumReference_eq_of_bracket 256 _ _ _ rfl (by omega) (by omega) (by decide) hle hgt

/-- Note 60 lowered by a semitone or nearly one rounds as note 59 does. -/
theorem fnumReference_60_of_near_59 {bend : Nat} {tr : Int}
    (hlo : 182 * 8192 ≤ fnumExponent 60 bend tr) (hhi : fnumExponent 60 bend tr ≤ 182 * 8192 + 256) :
    fnumReference 60 bend tr = 324 := by
  have hle : fnumAtMost (182 * 32) (12 * 32) 324 = true := by
    rw [fnumAtMost_mul (by decide)]
    decide
  have hgt : fnumAtMost (182 * 32 + 1) (12 * 32) 325 = false :=
    not_fnumAtMost_above 46 45 (by decide) root_two_le_ratio (by decide)
  exact fnumReference_eq_of_bracket 256 _ _ _ rfl (by omega) (by omega) (by decide) hle hgt

/-- Half way between two semitones, a margin of 17/12 at the upper one and at the lower one decides. -/
theorem fnumReference_of_half_semitone {n bend p f : Nat} {tr : Int}
    (hexp : fnumExponent n bend tr = ((2 * p + 1) * 4096 : Nat)) (hf : f < 2 ^ 11)
    (hle : ((2 * f - 1) * 25000) ^ 12 * 17 ≤ 440 ^ 12 * 2 ^ (p + 1) * 12)
    (hgt : 440 ^ 12 * 2 ^ p * 17 < ((2 * (f + 1) - 1) * 25000) ^ 12 * 12) :
    fnumReference n bend tr = f :=
  fnumReference_eq_of_bracket 4096 ((p + 1) * 2 - 1) (p * 2 + 1) (12 * 2) rfl (by omega) (by omega) hf
    (fnumAtMost_below 17 12 (by decide) sqrt_two_le_ratio (by omega) hle)
    (not_fnumAtMost_above 17 12 (by decide) sqrt_two_le_ratio hgt)

theorem fnumReference_60_of_half_below {bend : Nat} {tr : Int}
    (hexp : fnumExponent 60 bend tr = 365 * 4096) : fnumReference 60 bend tr = 333 :=
  fnumReference_of_half_semitone (p := 182) hexp (by decide) (by decide) (by decide)

theorem fnumReference_60_of_half_above {bend : Nat} {tr : Int}
    (hexp : fnumExponent 60 bend tr = 367 * 4096) : fnumReference 60 bend tr = 353 :=
  fnumReference_of_half_semitone (p := 183) hexp (by decide) (by decide) (by decide)

/-- Settles O52: the two rows of the centre table, the brackets around the off-centre exponents, and the
packing of block 4, which is the same under both settings. -/
theorem fnumTableValues : Obligations.FnumTableValues := by
  refine ⟨fun n _ => fnumReference_centre n, ⟨?bendDown, ?bendHalfDown, ?bendHalfUp, ?bendUp⟩,
    ⟨?trHalfUp, ?trUp, ?trDown⟩, fun p => ?registers⟩
  case bendDown => exact fnumReference_60_of_near_59 (by decide) (by decide)
  case trDown => exact fnumReference_60_of_near_59 (by decide) (by decide)
  case bendHalfDown => exact fnumReference_60_of_half_below (by decide)
  case bendHalfUp => exact fnumReference_60_of_half_above (by decide)
  case trHalfUp => exact fnumReference_60_of_half_above (by decide)
  case bendUp => exact fnumReference_60_of_near_61 (by decide) (by decide)
  case trUp => exact fnumReference_60_of_near_61 (by decide) (by decide)
  case registers =>
    rw [packKeyBlock_of_lt p (blk := blockOf 60) (by decide)]
    decide

end Sys2Proof.Proofs.Frequency

/-! PROOFS. The percussion level of 46_frequency (R287, R288), from the integer root of 00_scope R11. -/

namespace Sys2Proof.Proofs.PercLevel

open Sys2Proof Sys2Proof.Machine

/-! ### The integer root -/

/-- R11: the search for the root stops at the greatest number whose square is at most `x`. -/
theorem isqrt_bounds {x : Nat} (hx : x < 2 ^ 32) :
    isqrt x * isqrt x ≤ x ∧ x < (isqrt x + 1) * (isqrt x + 1) := by
  obtain ⟨hle, hgt, -, -⟩ := searchMax_spec (fun r => decide (r * r ≤ x)) 16 0
    (decide_eq_true (Nat.zero_le x)) (decide_eq_false (by omega))
  exact ⟨of_decide_eq_true hle, not_le.mp (of_decide_eq_false hgt)⟩

/-- The root that R287 takes lies strictly below the real root of 16 * vel, which is at most one more. -/
theorem isqrt_level_bounds {vel : Nat} (hpos : 1 ≤ vel) (hmax : vel ≤ 127) :
    isqrt (16 * vel - 1) ^ 2 < 16 * vel ∧ 16 * vel ≤ (isqrt (16 * vel - 1) + 1) ^ 2 := by
  obtain ⟨hle, hlt⟩ := isqrt_bounds (x := 16 * vel - 1) (by omega)
  rw [pow_two, pow_two]
  omega

/-! ### The integer form -/

section Level

variable {vel : Nat} (hpos : 1 ≤ vel) (hmax : vel ≤ 127)

include hpos hmax

theorem le_isqrt_level {r : Nat} (h : r ^ 2 < 16 * vel) : r ≤ isqrt (16 * vel - 1) :=
  Nat.lt_succ_iff.mp (lt_of_pow_lt_pow_left₀ 2 (Nat.zero_le _)
    (h.trans_le (isqrt_level_bounds hpos hmax).2))

theorem isqrt_level_lt {r : Nat} (h : 16 * vel ≤ r ^ 2) : isqrt (16 * vel - 1) < r :=
  lt_of_pow_lt_pow_left₀ 2 (Nat.zero_le _) ((isqrt_level_bounds hpos hmax).1.trans_le h)

/-- The cut above 0x7B and the clamp at 0x3F change nothing: the root is past 36 there, and the difference is
at most 36. -/
theorem percLevel_eq : percLevel vel = 36 - isqrt (16 * vel - 1) := by
  unfold percLevel
  split_ifs with hcut
  · have := le_isqrt_level hpos hmax (r := 36) (by omega)
    omega
  · omega

theorem percLevel_eq_zero (h : 82 ≤ vel) : percLevel vel = 0 := by
  rw [percLevel_eq hpos hmax, Nat.sub_eq_zero_of_le (le_isqrt_level hpos hmax (by omega))]

/-- The level `l` is that of the velocities with 36 - l < sqrt(16 * vel) ≤ 37 - l. -/
theorem percLevel_eq_of_bracket {l : Nat} (hl : l ≤ 36) (hlow : (36 - l) ^ 2 < 16 * vel)
    (hhigh : 16 * vel ≤ (37 - l) ^ 2) : percLevel vel = l := by
  have hge := le_isqrt_level hpos hmax hlow
  have hlt := isqrt_level_lt hpos hmax hhigh
  rw [percLevel_eq hpos hmax]
  omega

theorem percLevel_le : percLevel vel ≤ 33 := by
  have := le_isqrt_level hpos hmax (r := 3) (by omega)
  rw [percLevel_eq hpos hmax]
  omega

end Level

theorem percLevel_one : percLevel 1 = 33 :=
  percLevel_eq_of_bracket (by decide) (by decide) (by decide) (by decide) (by decide)

/-! ### The formula over the reals -/

/-- trunc(37 − r), toward zero, clamped, where `r` lies in (m, m + 1]: R287's integer form reads the level off
`m`. -/
theorem clamp_trunc_eq {r : ℝ} {m : Nat} (hlow : (m : ℝ) < r) (hhigh : r ≤ m + 1) :
    max 0 (min 0x3F (if 0 ≤ 37 - r then ⌊37 - r⌋ else ⌈37 - r⌉)) = ((36 - m : Nat) : Int) := by
  split_ifs with hsign
  · have hm : m ≤ 36 := by
      have : (m : ℝ) < 37 := by linarith
      exact Nat.lt_succ_iff.mp (by exact_mod_cast this)
    have hfloor : ⌊37 - r⌋ = 36 - (m : Int) := by
      rw [Int.floor_eq_iff]
      push_cast
      exact ⟨by linarith, by linarith⟩
    omega
  · have hm : 36 < m := by
      have : (36 : ℝ) < m := by linarith
      exact_mod_cast this
    have hceil : ⌈37 - r⌉ ≤ 0 := Int.ceil_le.mpr (by push_cast; linarith)
    omega

theorem sqrt_level_bounds {vel : Nat} (hpos : 1 ≤ vel) (hmax : vel ≤ 127) :
    (isqrt (16 * vel - 1) : ℝ) < √(16 * (vel : ℝ)) ∧
      √(16 * (vel : ℝ)) ≤ (isqrt (16 * vel - 1) : ℝ) + 1 := by
  obtain ⟨hlow, hhigh⟩ := isqrt_level_bounds hpos hmax
  constructor
  · exact Real.lt_sqrt_of_sq_lt (by exact_mod_cast hlow)
  · exact Real.sqrt_le_iff.mpr ⟨by positivity, by exact_mod_cast hhigh⟩

theorem percLevel_eq_clamp_trunc {vel : Nat} (hpos : 1 ≤ vel) (hmax : vel ≤ 127) :
    (percLevel vel : Int) =
      max 0 (min 0x3F (if 0 ≤ 37 - √(16 * (vel : ℝ)) then ⌊37 - √(16 * (vel : ℝ))⌋
        else ⌈37 - √(16 * (vel : ℝ))⌉)) := by
  obtain ⟨hlow, hhigh⟩ := sqrt_level_bounds hpos hmax
  rw [clamp_trunc_eq hlow hhigh, percLevel_eq hpos hmax]

/-- Settles O53: the real root and the integer root lie in one unit interval, so both forms agree, and the
bounds are read off the integer form. -/
theorem percLevelIsTheFormula : Obligations.PercLevelIsTheFormula := by
  intro vel hpos hmax
  refine ⟨?formula, percLevel_eq hpos hmax, percLevel_eq_zero hpos hmax, ?largest, percLevel_one⟩
  case formula =>
    by_cases hcut : 0x7B < vel
    · rw [if_pos hcut, percLevel_eq_zero hpos hmax (by omega)]
      rfl
    · rw [if_neg hcut]
      exact percLevel_eq_clamp_trunc hpos hmax
  case largest => exact (percLevel_le hpos hmax).trans_eq percLevel_one.symm

/-! ### The table -/

/-- R288's levels of the velocities 1 to 81, the last one above 0; entry 0 is a placeholder. -/
def levelRow : List Nat :=
  [0, 33, 31, 30, 29, 28, 27, 26, 25, 25, 24, 23, 23, 22, 22, 21, 21, 20, 20, 19, 19, 18, 18, 17, 17,
    17, 16, 16, 15, 15, 15, 14, 14, 14, 13, 13, 13, 12, 12, 12, 11, 11, 11, 10, 10, 10, 9, 9, 9, 9, 8, 8,
    8, 7, 7, 7, 7, 6, 6, 6, 6, 5, 5, 5, 5, 4, 4, 4, 4, 3, 3, 3, 3, 2, 2, 2, 2, 1, 1, 1, 1, 1]

/-- Each level of the row brackets the root of its velocity. -/
theorem levelRow_brackets : ∀ vel < 82, 1 ≤ vel →
    levelRow.getD vel 99 ≤ 36 ∧ (36 - levelRow.getD vel 99) ^ 2 < 16 * vel ∧
      16 * vel ≤ (37 - levelRow.getD vel 99) ^ 2 := by
  decide

/-- Settles O54: up to velocity 81 the row's brackets fix the level, and from 82 up it is 0. -/
theorem percLevelTable : Obligations.PercLevelTable := by
  intro vel hpos hmax
  change percLevel vel = (levelRow ++ List.replicate 46 0).getD vel 99
  have hlen : levelRow.length = 82 := rfl
  by_cases hrow : vel < 82
  · obtain ⟨hl, hlow, hhigh⟩ := levelRow_brackets vel hrow hpos
    rw [List.getD_append _ _ _ _ (hlen ▸ hrow)]
    exact percLevel_eq_of_bracket hpos hmax hl hlow hhigh
  · have htail : vel - 82 < 46 := by omega
    rw [percLevel_eq_zero hpos hmax (by omega), List.getD_append_right _ _ _ _ (by omega), hlen,
      List.getD_replicate _ htail]

end Sys2Proof.Proofs.PercLevel

/-! PROOFS. The terminations raised by a message: Stop and EndOfTrack (60_exceptions R302, R303). -/

namespace Sys2Proof.Proofs.Termination

open Sys2Proof Sys2Proof.Machine Sys2Proof.Proofs.StoppedEngine Sys2Proof.Proofs.SystemMessages

/-! ### A terminated engine -/

theorem terminate_tickResult (s : State) (r : EndReason) : (s.terminate r).tickResult = .ended r :=
  tickResult_of_ended (State.terminate_run s r)

/-- R151, R301: a termination is sticky, whatever its reason. -/
theorem step_terminate (s : State) (r : EndReason) :
    step (s.terminate r) = .next (s.terminate r) :=
  step_stopped (by simp)

/-- Only CorruptStream is logged; every other termination sets RUN alone. -/
theorem terminate_frame (s : State) {r : EndReason} (hr : r ≠ .corruptStream) :
    s.terminate r = { s with run := .ended r } := by
  cases r with
  | corruptStream => exact absurd rfl hr
  | stop => rfl
  | endOfTrack => rfl

/-- An instruction that terminates with a reason other than CorruptStream answers the same state with RUN
ended, and every tick after it returns that reason and changes nothing. -/
theorem ends_of_exec_terminate {i : Instr} {s : State} {r : EndReason}
    (hexec : exec i s = .next (s.terminate r)) (hr : r ≠ .corruptStream) :
    ∃ t, exec i s = .next t ∧ t = { s with run := .ended r } ∧ t.tickResult = .ended r ∧
      step t = .next t :=
  ⟨s.terminate r, hexec, terminate_frame s hr, terminate_tickResult s r, step_terminate s r⟩

/-! ### The two messages -/

/-- R95, R99: a message whose first byte is 0xF0..0xFF is the system message of that byte's low four bits. -/
theorem decodeMessage_system {st : Byte} (hhigh : st.toNat / 16 = 0xF) (rest : List Byte) :
    decodeMessage (st :: rest) = (decodeSystem (st.toNat % 16) rest).after 1 := by
  have hmsb : st.msb = true := by
    rw [BitVec.msb_eq_decide, decide_eq_true_iff]
    omega
  rw [decodeMessage, if_pos hmsb, decodeBody_system hhigh]

theorem exec_stop (s : State) : exec .stop s = .next (s.terminate .stop) := rfl

theorem exec_metaEndOfTrack (s : State) :
    exec .metaEndOfTrack s = .next (s.terminate .endOfTrack) := rfl

/-- Settles O36: the system-message map names each instruction (0xFF through the meta row of type 0x2F), and
that instruction terminates the engine with its own reason, neither of them CorruptStream. -/
theorem stopAndEndOfTrackEnd : Obligations.StopAndEndOfTrackEnd := by
  intro s
  refine ⟨⟨?stopDecodes, ends_of_exec_terminate (exec_stop s) (by decide)⟩,
    ⟨?endOfTrackDecodes, ends_of_exec_terminate (exec_metaEndOfTrack s) (by decide)⟩⟩
  case stopDecodes => exact decodeMessage_system (st := 0xFC) (by decide) []
  case endOfTrackDecodes => exact decodeMessage_system (st := 0xFF) (by decide) [0x2F]

end Sys2Proof.Proofs.Termination

/-! PROOFS. The host's tick loop (70_reset_and_hazards R340): every tick that may run answers, and one that
leaves the engine Running has read a delta time, of which no byte is given back (41_event_reader R162). -/

namespace Sys2Proof.Proofs.HostLoop

open Sys2Proof Sys2Proof.Machine Sys2Proof.Proofs.TickInvariant Sys2Proof.Proofs.Configuration
open Sys2Proof.Proofs.ControllerDispatch

/-! ### A tick answers -/

section Answers

variable {s : State}

theorem andThen_answers {o : Outcome} {k : State → Outcome} (ho : ∃ u, o = .next u)
    (hk : ∀ u, o = .next u → ∃ t, k u = .next t) : ∃ t, andThen o k = .next t := by
  obtain ⟨u, hu⟩ := ho
  obtain ⟨t, ht⟩ := hk u hu
  by_cases hrun : u.run = .running
  · exact ⟨t, andThen_eq_next.mpr ⟨u, hu, .inl ⟨hrun, ht⟩⟩⟩
  · exact ⟨u, andThen_eq_next.mpr ⟨u, hu, .inr ⟨hrun, rfl⟩⟩⟩

theorem dispatch_answers (st : Byte) (htps : s.cfg.tps ≠ 0) : ∃ t, dispatch st s = .next t := by
  unfold dispatch
  split
  case h_1 i used _ => exact exec_answers_next i (s.advance used) htps
  all_goals exact ⟨_, rfl⟩

theorem readMessage_answers (htps : s.cfg.tps ≠ 0) : ∃ t, readMessage s = .next t := by
  unfold readMessage
  split
  case h_1 => exact ⟨_, rfl⟩
  case h_2 b _ _ =>
    split
    case isTrue => exact dispatch_answers b htps
    case isFalse =>
      refine andThen_answers (exec_answers_next _ (s.advance 1) htps) fun u hu => ?_
      exact dispatch_answers u.rs (by rwa [exec_cfg hu])

theorem readEvent_answers (htps : s.cfg.tps ≠ 0) : ∃ t, readEvent s = .next t := by
  unfold readEvent
  split
  case h_1 => exact ⟨_, rfl⟩
  case h_2 delta used _ =>
    refine andThen_answers (exec_answers_next _ (s.advance used) htps) fun u hu => ?_
    exact readMessage_answers (by rwa [exec_cfg hu])

/-- R102: with a TPS that is not 0 a tick neither faults nor is refused. -/
theorem step_answers (htps : s.cfg.tps ≠ 0) : ∃ t, step s = .next t := by
  by_cases hrun : s.run = .running
  · rw [step_running hrun htps]
    exact readEvent_answers htps
  · exact ⟨s, step_stopped hrun⟩

end Answers

/-! ### The instructions a message decodes to

Each reader answers only instructions of the row it is given, and no row is RUNNING_STATUS. -/

section Rows

variable {rest : List Byte} {i : Instr} {used : Nat}

theorem dataByte1_row {mk : U7 → Instr} (h : dataByte1 mk rest = .instr i used) :
    ∃ d, i = mk d := by
  unfold dataByte1 at h
  split at h
  · cases h
  · split_ifs at h
    cases h
    exact ⟨_, rfl⟩

theorem dataByte2_row {mk : U7 → U7 → Instr} (h : dataByte2 mk rest = .instr i used) :
    ∃ d1 d2, i = mk d1 d2 := by
  unfold dataByte2 at h
  split at h
  · cases h
  · split_ifs at h
  · split_ifs at h
    cases h
    exact ⟨_, _, rfl⟩

theorem rawByte1_row {mk : Byte → Instr} (h : rawByte1 mk rest = .instr i used) :
    ∃ p, i = mk p := by
  unfold rawByte1 at h
  split at h <;> cases h
  exact ⟨_, rfl⟩

theorem rawByte2_row {mk : Byte → Byte → Instr} (h : rawByte2 mk rest = .instr i used) :
    ∃ p1 p2, i = mk p1 p2 := by
  unfold rawByte2 at h
  split at h <;> cases h
  exact ⟨_, _, rfl⟩

theorem decodeSysex_row (h : decodeSysex rest = .instr i used) : ∃ payload q, i = .sysex payload q := by
  unfold decodeSysex at h
  split at h <;> cases h
  exact ⟨_, _, rfl⟩

theorem controllerRow_ne_runningStatus (c : Chan) (num val x : U7) :
    controllerRow c num val ≠ .runningStatus x := by
  unfold controllerRow
  split_ifs <;> nofun

theorem metaRow_ne_runningStatus (b : Byte) (x : U7) : metaRow b ≠ .runningStatus x := by
  unfold metaRow
  split <;> nofun

theorem decodeSystem_ne_runningStatus {low : Nat} (h : decodeSystem low rest = .instr i used) (x : U7) :
    i ≠ .runningStatus x := by
  unfold decodeSystem at h
  split at h
  case h_1 => obtain ⟨_, _, rfl⟩ := decodeSysex_row h; nofun
  case h_2 => obtain ⟨_, rfl⟩ := rawByte1_row h; nofun
  case h_3 => obtain ⟨_, _, rfl⟩ := rawByte2_row h; nofun
  case h_4 => obtain ⟨_, rfl⟩ := rawByte1_row h; nofun
  case h_16 => obtain ⟨p, rfl⟩ := rawByte1_row h; exact metaRow_ne_runningStatus p x
  all_goals cases h; nofun

/-- R95, R157: RUNNING_STATUS is the form of a byte with bit 7 clear, never the message of a status. -/
theorem decodeBody_ne_runningStatus {st : Byte} (h : decodeBody st rest = .instr i used) (x : U7) :
    i ≠ .runningStatus x := by
  unfold decodeBody at h
  split at h
  case h_4 => obtain ⟨d1, d2, rfl⟩ := dataByte2_row h; exact controllerRow_ne_runningStatus _ d1 d2 x
  case h_5 | h_6 => obtain ⟨_, rfl⟩ := dataByte1_row h; nofun
  case h_8 => exact decodeSystem_ne_runningStatus h x
  case h_9 => cases h
  all_goals obtain ⟨_, _, rfl⟩ := dataByte2_row h; nofun

end Rows

/-! ### What the instructions do to PTR -/

@[simp] theorem writeLevel_ptr (d : Drum) (vel : U7) (s : State) : (writeLevel d vel s).ptr = s.ptr := by
  cases d <;> rfl

@[simp] theorem rebind_ptr (v : VoiceId) (k : U7) (s : State) : (rebind v k s).ptr = s.ptr := by
  rw [rebind_frame]

@[simp] theorem bindPerc_ptr (d : Drum) (k : U7) (s : State) : (bindPerc d k s).ptr = s.ptr := by
  rw [bindPerc_frame]

theorem melNoteOn_ptr (c : Chan) (n : U7) (blk fn : Nat) (s : State) :
    (melNoteOn c n blk fn s).ptr = s.ptr := by
  unfold melNoteOn
  dsimp only
  split <;> simp

theorem percNoteOn_ptr (d : Drum) (c : Chan) (n vel : U7) (blk fn : Nat) (s : State) :
    (percNoteOn d c n vel blk fn s).ptr = s.ptr := by
  unfold percNoteOn
  dsimp only
  split <;> simp [setDrum, clearDrum]

theorem noteOn_ptr (c : Chan) (n vel : U7) (s : State) : (noteOn c n vel s).ptr = s.ptr := by
  unfold noteOn
  dsimp only
  split
  · rw [percNoteOn_ptr, State.warnFreq_ptr]
  · rw [melNoteOn_ptr, State.warnFreq_ptr]

theorem melNoteOff_ptr (c : Chan) (n : U7) (s : State) : (melNoteOff c n s).ptr = s.ptr := by
  unfold melNoteOff
  split <;> rfl

theorem percNoteOff_ptr (d : Drum) (n : U7) (s : State) : (percNoteOff d n s).ptr = s.ptr := by
  unfold percNoteOff
  split <;> rfl

theorem noteOff_ptr (c : Chan) (n : U7) (s : State) : (noteOff c n s).ptr = s.ptr := by
  unfold noteOff
  split
  · exact percNoteOff_ptr _ n s
  · exact melNoteOff_ptr c n s

theorem emitDelta_ptr (d : Nat) (s : State) : (emitDelta d s).ptr = s.ptr := by
  obtain ⟨ms, -, he⟩ | ⟨-, he⟩ := emitDelta_cases d s
  · rw [he, State.emitDelay_ptr]
  · rw [he, State.raiseFault_ptr]

/-- Only RUNNING_STATUS gives a byte back. -/
theorem exec_ptr {i : Instr} {s t : State} (h : exec i s = .next t) (hi : ∀ x, i ≠ .runningStatus x) :
    t.ptr = s.ptr := by
  cases i
  case deltaTime d =>
    simp only [exec, execDeltaTime] at h
    split_ifs at h <;> cases h
    · rfl
    · exact emitDelta_ptr d s
  case noteOff c n vel => cases h; exact noteOff_ptr c n s
  case noteOn c n vel =>
    simp only [exec, execNoteOn] at h
    split_ifs at h <;> cases h
    · exact noteOff_ptr c n s
    · exact noteOn_ptr c n vel s
  case controller c num val => cases h; rw [controllerEffect_frame]
  case ctrlRhythm c val => cases h; rw [ctrlRhythm_frame]
  case runningStatus x => exact absurd rfl (hi x)
  all_goals cases h; rfl

/-- R156, R157: what RUNNING_STATUS gives back is one byte, with or without a stored status. -/
theorem exec_runningStatus_ptr {x : U7} {s t : State} (h : exec (.runningStatus x) s = .next t) :
    t.ptr = s.ptr - 1 := by
  simp only [exec, execRunningStatus] at h
  split_ifs at h <;> cases h <;> simp

/-! ### How a tick moves PTR -/

section Pointer

variable {s t : State}

theorem dispatch_ptr_le {st : Byte} (h : dispatch st s = .next t) : s.ptr ≤ t.ptr := by
  unfold dispatch at h
  split at h
  case h_1 i used hdec =>
    rw [exec_ptr h (decodeBody_ne_runningStatus hdec)]
    simp
  all_goals cases h; simp

theorem readMessage_ptr_le (h : readMessage s = .next t) : s.ptr ≤ t.ptr := by
  unfold readMessage at h
  split at h
  case h_1 => cases h; simp
  case h_2 b _ _ =>
    split at h
    case isTrue =>
      have := dispatch_ptr_le h
      simp only [State.setRs_ptr, State.advance_ptr] at this
      omega
    case isFalse =>
      refine andThen_keeps (P := fun u => s.ptr ≤ u.ptr) h (fun u hu => ?_) fun u hu hk =>
        hu.trans (dispatch_ptr_le hk)
      simp [exec_runningStatus_ptr hu]

/-- R162: a tick that leaves the engine Running found a byte at PTR and moved PTR on. -/
theorem step_running_ptr (h : step s = .next t) (hs : s.run = .running) (htps : s.cfg.tps ≠ 0)
    (ht : t.run = .running) : s.ptr < s.streamLength ∧ s.ptr < t.ptr := by
  rw [step_running hs htps] at h
  unfold readEvent at h
  split at h
  case h_1 => cases h; simp at ht
  case h_2 delta used hdec =>
    obtain ⟨hpos, hlen⟩ := decodeVlq_used hdec
    rw [State.remaining_length] at hlen
    have hptr : s.ptr + used ≤ t.ptr :=
      andThen_keeps (P := fun u => s.ptr + used ≤ u.ptr) h (fun u hu => (exec_ptr hu nofun).ge)
        fun u hu hk => hu.trans (readMessage_ptr_le hk)
    omega

end Pointer

/-! ### The loop -/

/-- More calls than bytes left end the loop: a call that leaves the engine Running uses up a byte, and what is
left of the stream is measured against the same L (R135). -/
theorem hostRun_ends {calls : Nat} {s : State} (htps : s.cfg.tps ≠ 0)
    (hcalls : s.streamLength - s.ptr < calls) :
    ∃ t, hostRun calls s = .next t ∧ t.run ≠ .running := by
  induction calls generalizing s with
  | zero => exact absurd hcalls (Nat.not_lt_zero _)
  | succ calls ih =>
    obtain ⟨u, hstep⟩ := step_answers htps
    simp only [hostRun, hstep]
    split
    case isFalse hstopped => exact ⟨u, rfl, hstopped⟩
    case isTrue hrun =>
      have hcfg : u.cfg = s.cfg := stepKeepsConfiguration s u hstep
      have hlength : u.streamLength = s.streamLength := by rw [State.streamLength, hcfg]; rfl
      have hs : s.run = .running := by
        by_contra hs
        rw [step_stopped hs] at hstep
        cases hstep
        exact hs hrun
      obtain ⟨hleft, hgrows⟩ := step_running_ptr hstep hs htps hrun
      exact ih (by rwa [hcfg]) (by omega)

/-- Settles O18: L - PTR + 1 calls are one more than the bytes left. -/
theorem hostRunEnds : Obligations.HostRunEnds :=
  fun _ htps => hostRun_ends htps (Nat.lt_succ_self _)

end Sys2Proof.Proofs.HostLoop

/-! PROOFS. The event encoding of 30_encoding: delta times and messages, decoded and encoded. -/

namespace Sys2Proof.Proofs.Encoding

open Sys2Proof Sys2Proof.Laws.RowKeepsBytes Sys2Proof.Proofs.ControllerDispatch
open Sys2Proof.Proofs.Termination

/-! ### Bytes -/

/-- R94: a data byte carries its operand in bits 6:0, with bit 7 clear. -/
@[simp] theorem dataByte_msb (d : U7) : (dataByte d).msb = false := by
  simp [dataByte, BitVec.msb_setWidth]

@[simp] theorem low7_dataByte (d : U7) : low7 (dataByte d) = d := by
  simp [low7, dataByte]

theorem dataByte_low7 {b : Byte} (h : b.msb = false) : dataByte (low7 b) = b := by
  rw [BitVec.msb_eq_decide, decide_eq_false_iff_not] at h
  apply BitVec.eq_of_toNat_eq
  simp only [dataByte, low7, BitVec.toNat_setWidth]
  omega

/-- A byte with bit 7 set is its low seven bits below that bit: the form of a sysex terminator (R216). -/
theorem terminator_low7 {b : Byte} (h : b.msb = true) : dataByte (low7 b) ||| 0x80 = b := by
  revert b
  decide

@[simp] theorem terminator_msb (d : U7) : (dataByte d ||| 0x80).msb = true := by
  rw [BitVec.msb_or, dataByte_msb]
  rfl

@[simp] theorem low7_terminator (d : U7) : low7 (dataByte d ||| 0x80) = d := by
  revert d
  decide

/-- R92: a status byte holds its kind in bits 7:4 and its channel in bits 3:0. -/
theorem statusByte_toNat {kind : Nat} (hkind : kind < 16) (c : Chan) :
    (statusByte kind c).toNat = kind * 16 + c.val := by
  rw [statusByte, BitVec.toNat_ofNat, Nat.mod_eq_of_lt (by omega)]

theorem statusByte_kind {kind : Nat} (hkind : kind < 16) (c : Chan) :
    (statusByte kind c).toNat / 16 = kind := by
  rw [statusByte_toNat hkind]
  omega

theorem channelOf_statusByte {kind : Nat} (hkind : kind < 16) (c : Chan) :
    channelOf (statusByte kind c) = c := by
  apply Fin.ext
  simp only [channelOf, statusByte_toNat hkind]
  omega

theorem statusByte_msb {kind : Nat} (hlow : 8 ≤ kind) (hkind : kind < 16) (c : Chan) :
    (statusByte kind c).msb = true := by
  rw [BitVec.msb_eq_decide, decide_eq_true_iff, statusByte_toNat hkind]
  omega

theorem statusByte_channelOf {st : Byte} {kind : Nat} (h : st.toNat / 16 = kind) :
    statusByte kind (channelOf st) = st := by
  apply BitVec.eq_of_toNat_eq
  rw [statusByte_toNat (by omega)]
  simp only [channelOf]
  omega

/-- A system status is 0xF0 and its low four bits (R99). -/
theorem systemStatus_eq {st : Byte} {low : Nat} (hkind : st.toNat / 16 = 0xF) (hlow : st.toNat % 16 = low) :
    st = BitVec.ofNat 8 (0xF0 + low) := by
  apply BitVec.eq_of_toNat_eq
  rw [BitVec.toNat_ofNat]
  omega

/-! ### Delta times -/

@[simp] theorem contByte_msb (n : Nat) : (contByte n).msb = true := by
  rw [BitVec.msb_eq_decide, decide_eq_true_iff, contByte, BitVec.toNat_ofNat]
  omega

@[simp] theorem lastByte_msb (n : Nat) : (lastByte n).msb = false := by
  rw [BitVec.msb_eq_decide, decide_eq_false_iff_not, lastByte, BitVec.toNat_ofNat]
  omega

@[simp] theorem low7_contByte (n : Nat) : (low7 (contByte n)).toNat = n % 128 := by
  rw [low7, contByte, BitVec.toNat_setWidth, BitVec.toNat_ofNat]
  omega

@[simp] theorem low7_lastByte (n : Nat) : (low7 (lastByte n)).toNat = n % 128 := by
  rw [low7, lastByte, BitVec.toNat_setWidth, BitVec.toNat_ofNat]
  omega

/-- R152: a byte with bit 7 set adds its group and goes on. -/
theorem decodeVlqFrom_continue (fuel v used : Nat) {x : Byte} (xs : List Byte) (h : x.msb = true) :
    decodeVlqFrom (fuel + 1) v used (x :: xs) =
      decodeVlqFrom fuel (v * 128 + (low7 x).toNat) (used + 1) xs := by
  rw [decodeVlqFrom, if_pos h]

/-- R152: a byte with bit 7 clear adds its group and ends the delta time. -/
theorem decodeVlqFrom_last (fuel v used : Nat) {x : Byte} (xs : List Byte) (h : x.msb = false) :
    decodeVlqFrom (fuel + 1) v used (x :: xs) = .value (v * 128 + (low7 x).toNat) (used + 1) := by
  rw [decodeVlqFrom, if_neg (Bool.eq_false_iff.mp h)]

/-- Settles O2: by the number of groups of `d`, each read back with its continuation bit. -/
theorem decodeEncodeDelta : Obligations.DecodeEncodeDelta := by
  intro d rest hd
  unfold encodeVlq decodeVlq
  split_ifs <;>
    simp only [List.cons_append, List.nil_append, decodeVlqFrom_continue, decodeVlqFrom_last, contByte_msb,
      lastByte_msb, low7_contByte, low7_lastByte, List.length_cons, List.length_nil, VlqRead.value.injEq,
      and_true] <;>
    omega

/-- The value that groups read after `v` give: each is appended below the ones before (R152). -/
def appendGroups (v : Nat) (bytes : List Byte) : Nat :=
  bytes.foldl (fun a x => a * 128 + (low7 x).toNat) v

/-- What `m` bytes that begin `bytes` are where reading stops after them, at most `fuel` being allowed: each but
the last has bit 7 set, and the last has it clear where more were allowed. -/
structure IsGroupPrefix (fuel : Nat) (bytes : List Byte) (m : Nat) : Prop where
  present : m ≤ bytes.length
  allowed : m ≤ fuel
  inner : ∀ k b, k + 1 < m → bytes[k]? = some b → b.msb = true
  last : ∀ b, m < fuel → bytes[m - 1]? = some b → b.msb = false

theorem IsGroupPrefix.cons {fuel m : Nat} {x : Byte} {xs : List Byte} (hx : x.msb = true)
    (hm : 0 < fuel → 0 < m) (h : IsGroupPrefix fuel xs m) : IsGroupPrefix (fuel + 1) (x :: xs) (m + 1) where
  present := Nat.succ_le_succ h.present
  allowed := Nat.succ_le_succ h.allowed
  inner k b hk hb := by
    cases k with
    | zero => cases hb; exact hx
    | succ k => exact h.inner k b (by omega) hb
  last b hlt hb := by
    obtain ⟨m, rfl⟩ : ∃ m', m = m' + 1 := ⟨m - 1, by have := hm (by omega); omega⟩
    exact h.last b (by omega) hb

/-- R152: what a delta time read from its first allowed byte on consists of. -/
theorem decodeVlqFrom_value {fuel v used w n : Nat} {bytes : List Byte}
    (h : decodeVlqFrom fuel v used bytes = .value w n) :
    ∃ m, n = used + m ∧ (0 < fuel → 0 < m) ∧ IsGroupPrefix fuel bytes m ∧
      w = appendGroups v (bytes.take m) := by
  induction fuel generalizing v used bytes with
  | zero =>
    cases h
    exact ⟨0, rfl, id, ⟨Nat.zero_le _, le_refl _, nofun, nofun⟩, rfl⟩
  | succ fuel ih =>
    cases bytes with
    | nil => cases h
    | cons x xs =>
      cases hx : x.msb with
      | true =>
        rw [decodeVlqFrom_continue _ _ _ _ hx] at h
        obtain ⟨m, rfl, hm, hprefix, rfl⟩ := ih h
        exact ⟨m + 1, by omega, fun _ => Nat.succ_pos m, hprefix.cons hx hm, rfl⟩
      | false =>
        rw [decodeVlqFrom_last _ _ _ _ hx] at h
        cases h
        refine ⟨1, rfl, fun _ => Nat.one_pos, ⟨by simp, by omega, by omega, fun b _ hb => ?_⟩, rfl⟩
        cases hb
        exact hx

/-- Where the stream ends inside a delta time, every byte had bit 7 set, and more were allowed. -/
theorem decodeVlqFrom_truncated_all {fuel v used n : Nat} {bytes : List Byte}
    (h : decodeVlqFrom fuel v used bytes = .truncated n) :
    bytes.length < fuel ∧ ∀ b ∈ bytes, b.msb = true := by
  induction fuel generalizing v used bytes with
  | zero => cases h
  | succ fuel ih =>
    cases bytes with
    | nil => exact ⟨Nat.succ_pos fuel, nofun⟩
    | cons x xs =>
      cases hx : x.msb with
      | true =>
        rw [decodeVlqFrom_continue _ _ _ _ hx] at h
        obtain ⟨hlen, hall⟩ := ih h
        exact ⟨Nat.succ_lt_succ hlen, List.forall_mem_cons.mpr ⟨hx, hall⟩⟩
      | false =>
        rw [decodeVlqFrom_last _ _ _ _ hx] at h
        cases h

/-- Each group adds seven bits. -/
theorem appendGroups_lt (v : Nat) (bytes : List Byte) :
    appendGroups v bytes < (v + 1) * 128 ^ bytes.length := by
  induction bytes generalizing v with
  | nil => simp [appendGroups]
  | cons x xs ih =>
    have hgroup : v * 128 + (low7 x).toNat + 1 ≤ (v + 1) * 128 := by
      have := (low7 x).isLt
      omega
    calc appendGroups v (x :: xs)
        < (v * 128 + (low7 x).toNat + 1) * 128 ^ xs.length := ih _
      _ ≤ (v + 1) * 128 * 128 ^ xs.length := Nat.mul_le_mul_right _ hgroup
      _ = (v + 1) * 128 ^ (x :: xs).length := by rw [List.length_cons]; ring

/-- Settles O4: the groups of a delta time that is read, and the bytes of one that is cut short. -/
theorem deltaTimeReading : Obligations.DeltaTimeReading := by
  refine fun bytes => ⟨fun v n h => ?value, fun n h => ?truncated⟩
  case value =>
    obtain ⟨m, rfl, hm, hprefix, rfl⟩ := decodeVlqFrom_value h
    have hallowed := hprefix.allowed
    rw [Nat.zero_add]
    refine ⟨hm (by decide), hallowed, hprefix.present, rfl, ?_, hprefix.inner, hprefix.last⟩
    have hlen : (bytes.take m).length ≤ 4 := (List.length_take_le m bytes).trans hallowed
    have hbound := appendGroups_lt 0 (bytes.take m)
    have hpow : 128 ^ (bytes.take m).length ≤ 128 ^ 4 := Nat.pow_le_pow_right (by decide) hlen
    omega
  case truncated =>
    obtain ⟨hlen, hall⟩ := decodeVlqFrom_truncated_all h
    have hn := decodeVlq_truncated h
    exact ⟨hn, hn ▸ hlen, hall⟩

/-! ### Messages from their bytes -/

theorem dataByte1_encoded (mk : U7 → Instr) (a : U7) (rest : List Byte) :
    dataByte1 mk (dataByte a :: rest) = .instr (mk a) 1 := by
  simp [dataByte1]

theorem dataByte2_encoded (mk : U7 → U7 → Instr) (a b : U7) (rest : List Byte) :
    dataByte2 mk (dataByte a :: dataByte b :: rest) = .instr (mk a b) 2 := by
  simp [dataByte2]

/-- R216: the scan stops at the terminator, the first byte with bit 7 set. -/
theorem sysexScan_encoded (payload : List U7) {x : Byte} (hx : x.msb = true) (rest : List Byte) :
    sysexScan (payload.map dataByte ++ x :: rest) = some (payload, low7 x) := by
  induction payload with
  | nil => simp [sysexScan, hx]
  | cons a payload ih => simp [sysexScan, ih]

/-- R95: a byte with bit 7 set is a status. -/
theorem decodeMessage_status {st : Byte} (h : st.msb = true) (rest : List Byte) :
    decodeMessage (st :: rest) = (decodeBody st rest).after 1 := by
  rw [decodeMessage, if_pos h]

/-! The kinds of R97: the reader that a status of each selects. -/

section Kinds

variable (st : Byte) (rest : List Byte)

theorem decodeBody_noteOff (h : st.toNat / 16 = 0x8) :
    decodeBody st rest = dataByte2 (.noteOff (channelOf st)) rest := by simp only [decodeBody, h]

theorem decodeBody_noteOn (h : st.toNat / 16 = 0x9) :
    decodeBody st rest = dataByte2 (.noteOn (channelOf st)) rest := by simp only [decodeBody, h]

theorem decodeBody_polyPressure (h : st.toNat / 16 = 0xA) :
    decodeBody st rest = dataByte2 (.polyPressure (channelOf st)) rest := by simp only [decodeBody, h]

theorem decodeBody_controller (h : st.toNat / 16 = 0xB) :
    decodeBody st rest = dataByte2 (controllerRow (channelOf st)) rest := by simp only [decodeBody, h]

theorem decodeBody_program (h : st.toNat / 16 = 0xC) :
    decodeBody st rest = dataByte1 (.program (channelOf st)) rest := by simp only [decodeBody, h]

theorem decodeBody_chanPressure (h : st.toNat / 16 = 0xD) :
    decodeBody st rest = dataByte1 (.chanPressure (channelOf st)) rest := by simp only [decodeBody, h]

theorem decodeBody_pitchBend (h : st.toNat / 16 = 0xE) :
    decodeBody st rest = dataByte2 (.pitchBend (channelOf st)) rest := by simp only [decodeBody, h]

end Kinds

section Channel

variable {kind : Nat} (hlow : 8 ≤ kind) (hkind : kind < 16) (c : Chan) (rest : List Byte)
include hlow hkind

theorem decodeMessage_channel2 {mk : Chan → U7 → U7 → Instr} (a b : U7)
    (hbody : ∀ st bytes, st.toNat / 16 = kind → decodeBody st bytes = dataByte2 (mk (channelOf st)) bytes) :
    decodeMessage (statusByte kind c :: dataByte a :: dataByte b :: rest) = .instr (mk c a b) 3 := by
  rw [decodeMessage_status (statusByte_msb hlow hkind c), hbody _ _ (statusByte_kind hkind c),
    dataByte2_encoded, channelOf_statusByte hkind]
  rfl

theorem decodeMessage_channel1 {mk : Chan → U7 → Instr} (a : U7)
    (hbody : ∀ st bytes, st.toNat / 16 = kind → decodeBody st bytes = dataByte1 (mk (channelOf st)) bytes) :
    decodeMessage (statusByte kind c :: dataByte a :: rest) = .instr (mk c a) 2 := by
  rw [decodeMessage_status (statusByte_msb hlow hkind c), hbody _ _ (statusByte_kind hkind c),
    dataByte1_encoded, channelOf_statusByte hkind]
  rfl

end Channel

/-- R98: the bytes of a controller message decode to the row of its number. -/
theorem decodeMessage_controllerRow (c : Chan) (num val : U7) (rest : List Byte) :
    decodeMessage (statusByte 0xB c :: dataByte num :: dataByte val :: rest) =
      .instr (controllerRow c num val) 3 :=
  decodeMessage_channel2 (by decide) (by decide) c rest num val decodeBody_controller

theorem decodeMessage_sysex (payload : List U7) (q : U7) (rest : List Byte) :
    decodeMessage (encode (.sysex payload q) ++ rest) =
      .instr (.sysex payload q) (encode (.sysex payload q)).length := by
  have hbytes : encode (.sysex payload q) ++ rest =
      0xF0 :: (payload.map dataByte ++ (dataByte q ||| 0x80) :: rest) := by simp [encode]
  have hlength : (encode (.sysex payload q)).length = 1 + (payload.length + 1) := by
    simp [encode]
    omega
  have hscan : decodeSysex (payload.map dataByte ++ (dataByte q ||| 0x80) :: rest) =
      .instr (.sysex payload q) (payload.length + 1) := by
    rw [decodeSysex, sysexScan_encoded payload (terminator_msb q) rest, low7_terminator]
  rw [hbytes, hlength, decodeMessage_system (by decide)]
  change (decodeSysex _).after 1 = _
  rw [hscan, Decoded.after]

theorem metaRow_of_ne {t : Byte} (h : t ≠ 0x2F) : metaRow t = .metaOther t := by
  rw [metaRow, if_neg h]

/-- Every message but a delta time decodes from its own bytes to its row. The rows of R99 without operands and
with raw bytes are read off the system map at their status. -/
theorem decodeMessage_encode {i : Instr} (hwf : i.wellFormed = true) (hdelta : ∀ d, i ≠ .deltaTime d)
    (rest : List Byte) : decodeMessage (encode i ++ rest) = .instr i.row (encode i).length := by
  cases i
  case deltaTime d => exact absurd rfl (hdelta d)
  case noteOff c n vel =>
    exact decodeMessage_channel2 (by decide) (by decide) c rest n vel decodeBody_noteOff
  case noteOn c n vel =>
    exact decodeMessage_channel2 (by decide) (by decide) c rest n vel decodeBody_noteOn
  case polyPressure c n p =>
    exact decodeMessage_channel2 (by decide) (by decide) c rest n p decodeBody_polyPressure
  case controller c num val => exact decodeMessage_controllerRow c num val rest
  case ctrlAmvib c val => exact decodeMessage_controllerRow c 0x63 val rest
  case ctrlMarker c val => exact decodeMessage_controllerRow c 0x66 val rest
  case ctrlRhythm c val => exact decodeMessage_controllerRow c 0x67 val rest
  case ctrlTransposeUp c val => exact decodeMessage_controllerRow c 0x68 val rest
  case ctrlTransposeDown c val => exact decodeMessage_controllerRow c 0x69 val rest
  case ctrlOther c num val =>
    have hnum : num ∉ namedControllers := by simpa [Instr.wellFormed] using hwf
    exact (decodeMessage_controllerRow c num val rest).trans
      (congrArg (Decoded.instr · 3) (controllerRow_of_not_named c val hnum))
  case program c p =>
    exact decodeMessage_channel1 (by decide) (by decide) c rest p decodeBody_program
  case chanPressure c p =>
    exact decodeMessage_channel1 (by decide) (by decide) c rest p decodeBody_chanPressure
  case pitchBend c lsb msb =>
    exact decodeMessage_channel2 (by decide) (by decide) c rest lsb msb decodeBody_pitchBend
  case sysex payload q => exact decodeMessage_sysex payload q rest
  case mtcQuarterFrame p => exact decodeMessage_system (st := 0xF1) (by decide) (p :: rest)
  case songPosition p1 p2 => exact decodeMessage_system (st := 0xF2) (by decide) (p1 :: p2 :: rest)
  case songSelect p => exact decodeMessage_system (st := 0xF3) (by decide) (p :: rest)
  case sysUndefinedF4 => exact decodeMessage_system (st := 0xF4) (by decide) rest
  case sysUndefinedF5 => exact decodeMessage_system (st := 0xF5) (by decide) rest
  case tuneRequest => exact decodeMessage_system (st := 0xF6) (by decide) rest
  case endSysex => exact decodeMessage_system (st := 0xF7) (by decide) rest
  case timingClock => exact decodeMessage_system (st := 0xF8) (by decide) rest
  case sysUndefinedF9 => exact decodeMessage_system (st := 0xF9) (by decide) rest
  case start => exact decodeMessage_system (st := 0xFA) (by decide) rest
  case continuePlay => exact decodeMessage_system (st := 0xFB) (by decide) rest
  case stop => exact decodeMessage_system (st := 0xFC) (by decide) rest
  case sysUndefinedFD => exact decodeMessage_system (st := 0xFD) (by decide) rest
  case activeSensing => exact decodeMessage_system (st := 0xFE) (by decide) rest
  case metaEndOfTrack => exact decodeMessage_system (st := 0xFF) (by decide) (0x2F :: rest)
  case metaOther t =>
    exact (decodeMessage_system (st := 0xFF) (by decide) (t :: rest)).trans
      (congrArg (Decoded.instr · 2) (metaRow_of_ne (of_decide_eq_true hwf)))
  case runningStatus x =>
    change decodeMessage (dataByte x :: rest) = .instr (.runningStatus x) 1
    rw [decodeMessage, if_neg (by simp), low7_dataByte]

theorem row_of_not_controller {i : Instr} (h : ∀ c num val, i ≠ .controller c num val) : i.row = i := by
  cases i
  case controller c num val => exact absurd rfl (h c num val)
  all_goals rfl

/-- Settles O1: each row is read back by the reader of its status. -/
theorem decodeEncodeMessage : Obligations.DecodeEncodeMessage :=
  fun _ rest hwf hdelta => ⟨decodeMessage_encode hwf hdelta rest, row_of_not_controller⟩

/-! ### Bytes from their message -/

/-- What a decoding has read: bytes that begin with exactly those of a well-formed instruction, its own row. -/
structure ReadsExactly (bytes : List Byte) (i : Instr) (n : Nat) : Prop where
  wellFormed : i.wellFormed = true
  ownRow : i.row = i
  used : n = (encode i).length
  begins : encode i <+: bytes

section Readers

variable {rest : List Byte} {i : Instr} {n : Nat}

theorem dataByte1_eq_instr {mk : U7 → Instr} (h : dataByte1 mk rest = .instr i n) :
    ∃ a, i = mk a ∧ n = 1 ∧ [dataByte a] <+: rest := by
  unfold dataByte1 at h
  split at h
  · cases h
  · next d rest =>
    split_ifs at h with hd
    cases h
    refine ⟨low7 d, rfl, rfl, ?_⟩
    rw [dataByte_low7 (by simpa using hd)]
    exact ⟨rest, rfl⟩

theorem dataByte2_eq_instr {mk : U7 → U7 → Instr} (h : dataByte2 mk rest = .instr i n) :
    ∃ a b, i = mk a b ∧ n = 2 ∧ [dataByte a, dataByte b] <+: rest := by
  unfold dataByte2 at h
  split at h
  · cases h
  · split_ifs at h
  · next d1 d2 rest =>
    split_ifs at h with hd1 hd2
    cases h
    refine ⟨low7 d1, low7 d2, rfl, rfl, ?_⟩
    rw [dataByte_low7 (by simpa using hd1), dataByte_low7 (by simpa using hd2)]
    exact ⟨rest, rfl⟩

theorem rawByte1_eq_instr {mk : Byte → Instr} (h : rawByte1 mk rest = .instr i n) :
    ∃ p, i = mk p ∧ n = 1 ∧ [p] <+: rest := by
  unfold rawByte1 at h
  split at h <;> cases h
  exact ⟨_, rfl, rfl, _, rfl⟩

theorem rawByte2_eq_instr {mk : Byte → Byte → Instr} (h : rawByte2 mk rest = .instr i n) :
    ∃ p1 p2, i = mk p1 p2 ∧ n = 2 ∧ [p1, p2] <+: rest := by
  unfold rawByte2 at h
  split at h <;> cases h
  exact ⟨_, _, rfl, rfl, _, rfl⟩

theorem sysexScan_eq_some {payload : List U7} {q : U7} (h : sysexScan rest = some (payload, q)) :
    payload.map dataByte ++ [dataByte q ||| 0x80] <+: rest := by
  induction rest generalizing payload with
  | nil => cases h
  | cons x xs ih =>
    unfold sysexScan at h
    split_ifs at h with hx
    · cases h
      rw [terminator_low7 hx]
      exact ⟨xs, rfl⟩
    · obtain ⟨⟨p, q'⟩, hscan, he⟩ := Option.map_eq_some_iff.mp h
      cases he
      rw [List.map_cons, dataByte_low7 (by simpa using hx)]
      exact List.cons_prefix_cons.mpr ⟨rfl, ih hscan⟩

theorem decodeSysex_eq_instr (h : decodeSysex rest = .instr i n) :
    ∃ payload q, i = .sysex payload q ∧ n = payload.length + 1 ∧
      payload.map dataByte ++ [dataByte q ||| 0x80] <+: rest := by
  unfold decodeSysex at h
  split at h <;> cases h
  next payload q hscan => exact ⟨payload, q, rfl, rfl, sysexScan_eq_some hscan⟩

/-- An instruction whose bytes are a status and what its reader has read after it. -/
theorem readsExactly_of_status {st st' : Byte} {ops : List Byte} (henc : encode i = st' :: ops) (hst : st' = st)
    (hops : ops <+: rest) (hn : n = ops.length) (hwf : i.wellFormed = true) (hrow : i.row = i) :
    ReadsExactly (st :: rest) i (1 + n) where
  wellFormed := hwf
  ownRow := hrow
  used := by rw [henc, List.length_cons, hn, Nat.add_comm]
  begins := by
    rw [henc, hst]
    exact List.cons_prefix_cons.mpr ⟨rfl, hops⟩

theorem metaRow_keeps (t : Byte) :
    (metaRow t).wellFormed = true ∧ (metaRow t).row = metaRow t ∧ encode (metaRow t) = [0xFF, t] := by
  unfold metaRow
  split_ifs with ht
  · exact ⟨rfl, rfl, by rw [ht]; rfl⟩
  · exact ⟨decide_eq_true ht, rfl, rfl⟩

theorem readsExactly_of_system {st : Byte} (hkind : st.toNat / 16 = 0xF)
    (h : decodeSystem (st.toNat % 16) rest = .instr i n) : ReadsExactly (st :: rest) i (1 + n) := by
  have hst : ∀ {low}, st.toNat % 16 = low → BitVec.ofNat 8 (0xF0 + low) = st := fun hlow =>
    (systemStatus_eq hkind hlow).symm
  unfold decodeSystem at h
  split at h
  case h_1 hlow =>
    obtain ⟨payload, q, rfl, rfl, hops⟩ := decodeSysex_eq_instr h
    exact readsExactly_of_status (by rfl) (hst hlow) hops (by simp) rfl rfl
  case h_2 hlow | h_4 hlow =>
    obtain ⟨p, rfl, rfl, hops⟩ := rawByte1_eq_instr h
    exact readsExactly_of_status (by rfl) (hst hlow) hops rfl rfl rfl
  case h_3 hlow =>
    obtain ⟨p1, p2, rfl, rfl, hops⟩ := rawByte2_eq_instr h
    exact readsExactly_of_status (by rfl) (hst hlow) hops rfl rfl rfl
  case h_16 =>
    obtain ⟨t, rfl, rfl, hops⟩ := rawByte1_eq_instr h
    obtain ⟨hwf, hrow, henc⟩ := metaRow_keeps t
    have hlow : st.toNat % 16 = 0xF := by
      simp only [imp_false] at *
      omega
    exact readsExactly_of_status henc (hst hlow) hops rfl hwf hrow
  all_goals
    next hlow =>
      cases h
      exact readsExactly_of_status (by rfl) (hst hlow) (List.nil_prefix) rfl rfl rfl

theorem readsExactly_of_body {st : Byte} (h : decodeBody st rest = .instr i n) :
    ReadsExactly (st :: rest) i (1 + n) := by
  unfold decodeBody at h
  split at h
  case h_4 hkind =>
    obtain ⟨num, val, rfl, rfl, hops⟩ := dataByte2_eq_instr h
    obtain ⟨hwf, hrow, henc⟩ := controllerRow_keeps (channelOf st) num val
    exact readsExactly_of_status henc (statusByte_channelOf hkind) hops rfl hwf hrow
  case h_5 hkind | h_6 hkind =>
    obtain ⟨a, rfl, rfl, hops⟩ := dataByte1_eq_instr h
    exact readsExactly_of_status (by rfl) (statusByte_channelOf hkind) hops rfl rfl rfl
  case h_8 hkind => exact readsExactly_of_system hkind h
  case h_9 => cases h
  all_goals
    next hkind =>
      obtain ⟨a, b, rfl, rfl, hops⟩ := dataByte2_eq_instr h
      exact readsExactly_of_status (by rfl) (statusByte_channelOf hkind) hops rfl rfl rfl

end Readers

theorem after_eq_instr {x : Decoded} {k n : Nat} {i : Instr} (h : x.after k = .instr i n) :
    ∃ m, x = .instr i m ∧ n = k + m := by
  cases x with
  | instr j m => cases h; exact ⟨m, rfl, rfl⟩
  | truncated m => cases h
  | badDataByte m => cases h
  | noStatus => cases h

theorem readsExactly_of_message {bytes : List Byte} {i : Instr} {n : Nat}
    (h : decodeMessage bytes = .instr i n) : ReadsExactly bytes i n := by
  unfold decodeMessage at h
  split at h
  · cases h
  · next b rest =>
    split_ifs at h with hb
    · obtain ⟨m, hbody, rfl⟩ := after_eq_instr h
      exact readsExactly_of_body hbody
    · cases h
      refine ⟨rfl, rfl, rfl, ?_⟩
      rw [encode, dataByte_low7 (by simpa using hb)]
      exact ⟨rest, rfl⟩

/-- Settles O3: what a list begins with is its first bytes. -/
theorem encodeDecodedMessage : Obligations.EncodeDecodedMessage := by
  intro bytes i n h
  obtain ⟨hwf, hrow, rfl, hbegins⟩ := readsExactly_of_message h
  exact ⟨hwf, hrow, hbegins.length_le, List.prefix_iff_eq_take.mp hbegins⟩

/-! ### Table words and statuses -/

/-- Settles O5: each word is a closed evaluation of the decoder. -/
theorem tableWordsDecode : Obligations.TableWordsDecode := by
  unfold Obligations.TableWordsDecode
  decide

section Statuses

variable (rest : List Byte)

theorem dataByte1_ne_noStatus (mk : U7 → Instr) : dataByte1 mk rest ≠ .noStatus := by
  unfold dataByte1
  split
  · nofun
  · split_ifs <;> nofun

theorem dataByte2_ne_noStatus (mk : U7 → U7 → Instr) : dataByte2 mk rest ≠ .noStatus := by
  unfold dataByte2
  split
  · nofun
  · split_ifs <;> nofun
  · split_ifs <;> nofun

theorem rawByte1_ne_noStatus (mk : Byte → Instr) : rawByte1 mk rest ≠ .noStatus := by
  unfold rawByte1
  split <;> nofun

theorem rawByte2_ne_noStatus (mk : Byte → Byte → Instr) : rawByte2 mk rest ≠ .noStatus := by
  unfold rawByte2
  split <;> nofun

theorem decodeSystem_ne_noStatus (low : Nat) : decodeSystem low rest ≠ .noStatus := by
  unfold decodeSystem
  split
  case h_1 =>
    unfold decodeSysex
    split <;> nofun
  case h_2 | h_4 | h_16 => exact rawByte1_ne_noStatus rest _
  case h_3 => exact rawByte2_ne_noStatus rest _
  all_goals nofun

/-- Settles O6: a status has bit 7 set where its kind is 8 to 15, and each of these has a reader. -/
theorem statusHasARule : Obligations.StatusHasARule := by
  intro st rest
  rw [BitVec.msb_eq_decide, decide_eq_false_iff_not]
  unfold decodeBody
  split
  case h_5 | h_6 => exact iff_of_false (dataByte1_ne_noStatus rest _) (by omega)
  case h_8 => exact iff_of_false (decodeSystem_ne_noStatus rest _) (by omega)
  case h_9 =>
    refine iff_of_true rfl ?_
    simp only [imp_false] at *
    omega
  all_goals exact iff_of_false (dataByte2_ne_noStatus rest _) (by omega)

end Statuses

end Sys2Proof.Proofs.Encoding

/-! PROOFS. The legal states of 10_state (R24 to R36): kept by every instruction and by every tick, and left by
every Reset. -/

namespace Sys2Proof.Proofs.Legality

open Sys2Proof Sys2Proof.Machine Sys2Proof.Proofs.TickInvariant

variable {s : State}

/-! ### The note messages -/

theorem legal_melNoteOn (h : LegalState s) (c : Chan) (n : U7) (blk fn : Nat) :
    LegalState (melNoteOn c n blk fn s) := by
  have hbound := (h.warnSteal (s.channel c).instrument).rebind
    (findVoice s (s.channel c).instrument) (s.channel c).instrument
  unfold melNoteOn
  dsimp only
  split_ifs with hnc
  · exact hbound.raiseFault _
  · exact (hbound.stamp _ n c hnc).writeRegs _ (freqWrites_ordinary _ _ blk fn true)

theorem legal_percNoteOn (h : LegalState s) (d : Drum) (c : Chan) (n vel : U7) (blk fn : Nat) :
    LegalState (percNoteOn d c n vel blk fn s) := by
  have hwritten := ((((h.bindPerc d (s.channel c).instrument).writeLevel d vel).clearDrum d).setDrum d).writeRegs
    _ (freqWrites_ordinary s.cfg.blockPacking d.voice blk fn false)
  unfold percNoteOn
  dsimp only
  split_ifs with hnc
  · exact hwritten.raiseFault _
  · exact hwritten.stamp _ n c hnc

theorem legal_noteOn (h : LegalState s) (c : Chan) (n vel : U7) : LegalState (noteOn c n vel s) := by
  unfold noteOn
  dsimp only
  split
  · exact legal_percNoteOn (h.warnFreq c n) _ c n vel _ _
  · exact legal_melNoteOn (h.warnFreq c n) c n _ _

theorem legal_melNoteOff (h : LegalState s) (c : Chan) (n : U7) : LegalState (melNoteOff c n s) := by
  unfold melNoteOff
  split
  · next i _ =>
    obtain ⟨hwritable, hne⟩ := voiceRegs_ordinary i (regB0 i) (by simp)
    exact (h.freeVoiceAt i).writeReg _ _ hwritable fun e => absurd e hne
  · exact h.warn _

theorem legal_percNoteOff (h : LegalState s) (d : Drum) (n : U7) : LegalState (percNoteOff d n s) := by
  unfold percNoteOff
  split_ifs
  · exact (h.clearDrum d).freeVoiceAt _
  · exact h.warn _

theorem legal_noteOff (h : LegalState s) (c : Chan) (n : U7) : LegalState (noteOff c n s) := by
  unfold noteOff
  split
  · exact legal_percNoteOff h _ n
  · exact legal_melNoteOff h c n

/-! ### The controllers -/

/-- R202: the depth value leaves bit 5 of 0xBD as it was. -/
theorem depthValue_getLsbD_five (old : Byte) (val : U7) :
    (depthValue old val).getLsbD 5 = old.getLsbD 5 := by
  simp [depthValue]

theorem legal_ctrlAmVib (h : LegalState s) (val : U7) : LegalState (ctrlAmVib val s) := by
  refine h.writeReg regBD _ regBD_writable fun _ => ?_
  rw [depthValue_getLsbD_five, h.rhythmMirrored]

/-- RHY and bit 5 of 0xBD may be set together: every other clause of a legal state reads neither. -/
theorem LegalState.setRhythm_writeReg (h : LegalState s) (b : Bool) (x : Byte) (hx : x.getLsbD 5 = b) :
    LegalState ((s.setRhythm b).writeReg regBD x) where
  mirrorCanonical := State.writeReg_wf (s := s.setRhythm b) h.mirrorCanonical regBD x
  mirrorFootprint r hr := by
    rw [State.mirrorAt_writeReg (s := s.setRhythm b) h.mirrorCanonical, if_neg]
    · exact h.mirrorFootprint r hr
    · rintro rfl
      rw [regBD_writable] at hr
      cases hr
  rhythmMirrored := by
    rw [State.mirrorAt_writeReg (s := s.setRhythm b) h.mirrorCanonical, if_pos rfl, hx]
    rfl
  stampsBounded := h.stampsBounded
  stampsDistinct := h.stampsDistinct
  counterFits := h.counterFits
  transposeRange := h.transposeRange
  pointerRange := h.pointerRange
  statusStored := h.statusStored

theorem legal_ctrlRhythm (h : LegalState s) (val : U7) : LegalState (ctrlRhythm val s) := by
  unfold ctrlRhythm
  split_ifs
  · exact LegalState.setRhythm_writeReg h true _ (by simp [setBits, rhythmBit])
  · exact LegalState.setRhythm_writeReg h false _ (by simp [clearBits, rhythmBit])

/-- R205: a 7-bit value lies within TR's range. -/
theorem transposeUp_range (val : U7) : -127 ≤ transposeUp val ∧ transposeUp val ≤ 127 := by
  have := val.isLt
  unfold transposeUp
  omega

theorem transposeDown_range (val : U7) : -127 ≤ transposeDown val ∧ transposeDown val ≤ 127 := by
  have := val.isLt
  unfold transposeDown
  omega

theorem legal_controllerEffect (h : LegalState s) (num val : U7) :
    LegalState (controllerEffect num val s) := by
  unfold controllerEffect
  split_ifs
  · exact legal_ctrlAmVib h val
  · exact h.warn _
  · exact legal_ctrlRhythm h val
  · exact h.setTranspose _ (transposeUp_range val)
  · exact h.setTranspose _ (transposeDown_range val)
  · exact h.warn _

/-! ### Every instruction -/

theorem legal_emitDelta (h : LegalState s) (d : Nat) : LegalState (emitDelta d s) := by
  obtain ⟨ms, -, he⟩ | ⟨-, he⟩ := emitDelta_cases d s
  · exact he ▸ h.emitDelay ms
  · exact he ▸ h.raiseFault _

/-- The rows that only log or do nothing are the last cases. -/
theorem legal_exec {i : Instr} {t : State} (he : exec i s = .next t) (h : LegalState s) : LegalState t := by
  cases i
  case deltaTime d =>
    simp only [exec, execDeltaTime] at he
    split_ifs at he <;> cases he
    · exact h
    · exact legal_emitDelta h d
  case noteOff c n vel => cases he; exact legal_noteOff h c n
  case noteOn c n vel =>
    simp only [exec, execNoteOn] at he
    split_ifs at he <;> cases he
    · exact legal_noteOff h c n
    · exact legal_noteOn h c n vel
  case controller c num val => cases he; exact legal_controllerEffect h num val
  case ctrlAmvib c val => cases he; exact legal_ctrlAmVib h val
  case ctrlRhythm c val => cases he; exact legal_ctrlRhythm h val
  case ctrlTransposeUp c val => cases he; exact h.setTranspose _ (transposeUp_range val)
  case ctrlTransposeDown c val => cases he; exact h.setTranspose _ (transposeDown_range val)
  case program c p => cases he; exact h.setChannel c _
  case pitchBend c lsb msb => cases he; exact h.setChannel c _
  case stop => cases he; exact h.terminate _
  case metaEndOfTrack => cases he; exact h.terminate _
  case runningStatus x =>
    simp only [exec, execRunningStatus] at he
    split_ifs at he <;> cases he
    · exact h.rewind
    · exact h.rewind.terminate _
  case polyPressure | chanPressure | ctrlMarker | ctrlOther | sysex | sysUndefinedF4 | sysUndefinedF5 |
      sysUndefinedF9 | sysUndefinedFD | metaOther => cases he; exact h.warn _
  all_goals cases he; exact h

/-! ### The tick -/

theorem legal_keptByParts : KeptByParts LegalState where
  advance _ n hn h := h.advance n hn
  setRs _ b hb h := h.setRs b hb
  corruptStream _ h := h.terminate _
  badDataByte _ h := h.raiseFault _
  exec _ _ _ he h := legal_exec he h

/-- Settles O14: legality is kept by every part of a tick. -/
theorem stepKeepsLegalState : Obligations.StepKeepsLegalState :=
  fun _ _ h hstep => legal_keptByParts.step hstep h

/-! ### Reset -/

theorem legal_initial (cfg : Config) : LegalState (State.initial cfg) where
  mirrorCanonical := ⟨List.Pairwise.nil, nofun⟩
  mirrorFootprint _ _ := rfl
  rhythmMirrored := by simp [State.initial, State.mirrorAt, Memory.read, Memory.unlisted]
  stampsBounded i := by simp [State.voice, State.initial, Voice.reset]
  stampsDistinct i j _ := by simp [State.voice, State.initial, Voice.reset]
  counterFits := Nat.two_pow_pos _
  transposeRange := by simp [State.initial]
  pointerRange := Nat.zero_le _
  statusStored := .inl rfl

/-- R333: the presets write frequency registers only. -/
theorem presetWrites_ordinary (ps : List Preset) :
    ∀ w ∈ ps.flatMap presetWrites, writable w.1 = true ∧ w.1 ≠ regBD := by
  intro w hw
  obtain ⟨p, -, hw⟩ := List.mem_flatMap.mp hw
  simp only [presetWrites, List.mem_cons, List.not_mem_nil, or_false] at hw
  rcases hw with rfl | rfl
  · exact voiceRegs_ordinary p.voice (regA0 p.voice) (by simp)
  · exact voiceRegs_ordinary p.voice (regB0 p.voice) (by simp)

/-- The two resets that are accepted (R331, R333). -/
theorem resetEngine_eq_ok {cfg : Config} {s : State} (h : resetEngine cfg = .ok s) :
    s = State.initial cfg ∨ s = presetPercFreqs (State.initial cfg) := by
  unfold resetEngine at h
  split_ifs at h <;> cases h
  · exact .inr rfl
  · exact .inl rfl

end Sys2Proof.Proofs.Legality

/-! PROOFS. What the two ports carry (20_memory R66, R70, 60_exceptions R310): every register write reaches the
mirror and the output together, and both ports are appended to only. -/

namespace Sys2Proof.Proofs.PortHistory

open Sys2Proof Sys2Proof.Machine Sys2Proof.Proofs.TickInvariant Sys2Proof.Proofs.Legality
open Sys2Proof.Proofs.HostLoop

/-! ### Register writes and log entries -/

/-- `t` comes from `s` by register writes, each of them in the mirror and on the output port, and log entries,
whatever happens to the other fields. -/
structure OnlyWritesAndLogs (s t : State) : Prop where
  writes : ∃ ws, t.mirror = (s.writeRegs ws).mirror ∧ t.out = s.out ++ writeItems ws
  logs : s.log <+: t.log

namespace OnlyWritesAndLogs

variable {s t u : State}

theorem of_same (hm : t.mirror = s.mirror) (ho : t.out = s.out) (hl : t.log = s.log) :
    OnlyWritesAndLogs s t :=
  ⟨⟨[], hm, by simp [ho, writeItems]⟩, hl ▸ List.prefix_rfl⟩

theorem refl (s : State) : OnlyWritesAndLogs s s := of_same rfl rfl rfl

/-- The mirror after writes depends on the mirror before them only. -/
theorem writeRegs_mirror_congr {s t : State} (h : t.mirror = s.mirror) (ws : List (Byte × Byte)) :
    (t.writeRegs ws).mirror = (s.writeRegs ws).mirror := by
  induction ws generalizing s t with
  | nil => exact h
  | cons w ws ih => exact ih (by simp [h])

theorem trans (h : OnlyWritesAndLogs s t) (h' : OnlyWritesAndLogs t u) : OnlyWritesAndLogs s u := by
  obtain ⟨⟨ws, hm, ho⟩, hl⟩ := h
  obtain ⟨⟨ws', hm', ho'⟩, hl'⟩ := h'
  refine ⟨⟨ws ++ ws', ?_, ?_⟩, hl.trans hl'⟩
  · rw [hm', State.writeRegs_append, writeRegs_mirror_congr hm]
  · rw [ho', ho, List.append_assoc, writeItems, writeItems, writeItems, List.map_append]

theorem advance (s : State) (n : Nat) : OnlyWritesAndLogs s (s.advance n) := of_same rfl rfl rfl

theorem rewind (s : State) : OnlyWritesAndLogs s s.rewind := of_same rfl rfl rfl

theorem setRs (s : State) (b : Byte) : OnlyWritesAndLogs s (s.setRs b) := of_same rfl rfl rfl

theorem setRhythm (s : State) (b : Bool) : OnlyWritesAndLogs s (s.setRhythm b) := of_same rfl rfl rfl

theorem freeVoiceAt (s : State) (i : VoiceId) : OnlyWritesAndLogs s (s.freeVoiceAt i) := of_same rfl rfl rfl

/-- A change of the other fields, after writes and log entries. -/
theorem then_same (h : OnlyWritesAndLogs s t) (hm : u.mirror = t.mirror) (ho : u.out = t.out)
    (hl : u.log = t.log) : OnlyWritesAndLogs s u :=
  h.trans (of_same hm ho hl)

theorem warn (s : State) (e : LogEntry) : OnlyWritesAndLogs s (s.warn e) :=
  ⟨⟨[], rfl, by simp [writeItems]⟩, List.prefix_append ..⟩

theorem writeRegs (s : State) (ws : List (Byte × Byte)) : OnlyWritesAndLogs s (s.writeRegs ws) :=
  ⟨⟨ws, rfl, s.writeRegs_out ws⟩, by rw [State.writeRegs_log]⟩

theorem writeReg (s : State) (r x : Byte) : OnlyWritesAndLogs s (s.writeReg r x) := writeRegs s [(r, x)]

theorem then_writeRegs (h : OnlyWritesAndLogs s t) (ws : List (Byte × Byte)) :
    OnlyWritesAndLogs s (t.writeRegs ws) := h.trans (writeRegs t ws)

theorem then_writeReg (h : OnlyWritesAndLogs s t) (r x : Byte) : OnlyWritesAndLogs s (t.writeReg r x) :=
  h.trans (writeReg t r x)

theorem terminate (s : State) (r : EndReason) : OnlyWritesAndLogs s (s.terminate r) := by
  cases r with
  | corruptStream => exact (warn s .corruptStream).then_same rfl rfl rfl
  | stop | endOfTrack => exact of_same rfl rfl rfl

/-! ### The note messages -/

theorem warnFreq (s : State) (c : Chan) (n : U7) : OnlyWritesAndLogs s (s.warnFreq c n) := by
  unfold State.warnFreq
  split_ifs
  · exact warn s _
  · exact refl s

theorem warnSteal (s : State) (k : U7) : OnlyWritesAndLogs s (warnSteal s k) := by
  unfold Machine.warnSteal
  split
  · exact refl s
  · exact warn s _

theorem rebind (v : VoiceId) (k : U7) (s : State) : OnlyWritesAndLogs s (rebind v k s) := by
  unfold Machine.rebind
  split_ifs
  · exact refl s
  · exact (writeRegs s _).then_same rfl rfl rfl

theorem writeLevel (d : Drum) (vel : U7) (s : State) : OnlyWritesAndLogs s (writeLevel d vel s) := by
  cases d
  · exact writeReg s _ _
  all_goals exact refl s

theorem melNoteOn (c : Chan) (n : U7) (blk fn : Nat) (s : State) :
    OnlyWritesAndLogs s (melNoteOn c n blk fn s) := by
  have hbound := (warnSteal s (s.channel c).instrument).trans (rebind
    (findVoice s (s.channel c).instrument) (s.channel c).instrument _)
  unfold Machine.melNoteOn
  dsimp only
  split_ifs
  · exact hbound.then_same rfl rfl rfl
  · exact then_writeRegs (hbound.then_same (by simp) (by simp) (by simp)) _

theorem percNoteOn (d : Drum) (c : Chan) (n vel : U7) (blk fn : Nat) (s : State) :
    OnlyWritesAndLogs s (percNoteOn d c n vel blk fn s) := by
  have hbound : OnlyWritesAndLogs s (bindPerc d (s.channel c).instrument s) :=
    (writeRegs s _).then_same rfl rfl rfl
  have hretriggered : OnlyWritesAndLogs s
      (setDrum d (clearDrum d (Machine.writeLevel d vel (bindPerc d (s.channel c).instrument s)))) :=
    ((hbound.trans (writeLevel d vel _)).then_writeReg regBD _).then_writeReg regBD _
  unfold Machine.percNoteOn
  dsimp only
  split_ifs <;> exact (hretriggered.then_writeRegs _).then_same rfl rfl rfl

theorem noteOn (c : Chan) (n vel : U7) (s : State) : OnlyWritesAndLogs s (noteOn c n vel s) := by
  unfold Machine.noteOn
  dsimp only
  split
  · exact (warnFreq s c n).trans (percNoteOn _ c n vel _ _ _)
  · exact (warnFreq s c n).trans (melNoteOn c n _ _ _)

theorem melNoteOff (c : Chan) (n : U7) (s : State) : OnlyWritesAndLogs s (melNoteOff c n s) := by
  unfold Machine.melNoteOff
  split
  · exact (freeVoiceAt s _).then_writeReg _ _
  · exact warn s _

theorem percNoteOff (d : Drum) (n : U7) (s : State) : OnlyWritesAndLogs s (percNoteOff d n s) := by
  unfold Machine.percNoteOff
  split_ifs
  · exact (writeReg s regBD _).then_same rfl rfl rfl
  · exact warn s _

theorem noteOff (c : Chan) (n : U7) (s : State) : OnlyWritesAndLogs s (noteOff c n s) := by
  unfold Machine.noteOff
  split
  · exact percNoteOff _ n s
  · exact melNoteOff c n s

/-! ### The controllers and every instruction -/

theorem ctrlRhythm (val : U7) (s : State) : OnlyWritesAndLogs s (ctrlRhythm val s) := by
  unfold Machine.ctrlRhythm
  split_ifs <;> exact (setRhythm s _).then_writeReg _ _

theorem controllerEffect (num val : U7) (s : State) : OnlyWritesAndLogs s (controllerEffect num val s) := by
  unfold Machine.controllerEffect
  split_ifs
  · exact writeReg s _ _
  · exact warn s _
  · exact ctrlRhythm val s
  · exact of_same rfl rfl rfl
  · exact of_same rfl rfl rfl
  · exact warn s _

/-- Every instruction but DELTA_TIME. The last cases do not touch the ports. -/
theorem exec {i : Instr} (h : exec i s = .next t) (hi : ∀ d, i ≠ .deltaTime d) : OnlyWritesAndLogs s t := by
  cases i
  case deltaTime d => exact absurd rfl (hi d)
  case noteOff c n vel => cases h; exact noteOff c n s
  case noteOn c n vel =>
    simp only [Machine.exec, execNoteOn] at h
    split_ifs at h <;> cases h
    · exact noteOff c n s
    · exact noteOn c n vel s
  case controller c num val => cases h; exact controllerEffect num val s
  case ctrlAmvib c val => cases h; exact writeReg s _ _
  case ctrlRhythm c val => cases h; exact ctrlRhythm val s
  case stop | metaEndOfTrack => cases h; exact terminate s _
  case runningStatus x =>
    simp only [Machine.exec, execRunningStatus] at h
    split_ifs at h <;> cases h
    · exact rewind s
    · exact (rewind s).trans (terminate s.rewind _)
  case polyPressure | chanPressure | ctrlMarker | ctrlOther | sysex | sysUndefinedF4 | sysUndefinedF5 |
      sysUndefinedF9 | sysUndefinedFD | metaOther => cases h; exact warn s _
  all_goals cases h; exact of_same rfl rfl rfl

end OnlyWritesAndLogs

/-! ### DELTA_TIME -/

/-- R153, R154: what DELTA_TIME can do. -/
theorem exec_deltaTime_cases {d : Nat} {s t : State} (h : exec (.deltaTime d) s = .next t) :
    t = s ∨ (∃ ms, t = s.emitDelay ms) ∨ t = s.raiseFault .delayOverflow := by
  simp only [exec, execDeltaTime] at h
  split_ifs at h <;> cases h
  · exact .inl rfl
  · obtain ⟨ms, -, he⟩ | ⟨-, he⟩ := emitDelta_cases d s
    · exact .inr (.inl ⟨ms, he⟩)
    · exact .inr (.inr he)

/-! ### The mirror replays the output -/

/-- The canonical mirror that replays the output: one invariant, since writes are replayed on canonical mirrors. -/
def ReplaysCanonically (s : State) : Prop := Memory.wf s.mirror ∧ mirrorReplaysOutput s

section Replay

variable {s t : State}

/-- The items of writes replayed on top of what a register held. -/
theorem lastWritten_append_writeItems (r : Byte) (items : List OutItem) (ws : List (Byte × Byte)) :
    lastWritten r (items ++ writeItems ws) =
      ws.foldl (fun x w => if w.1 = r then w.2 else x) (lastWritten r items) := by
  simp [lastWritten, writeItems, List.foldl_map]

theorem lastWritten_append_delay (r : Byte) (items : List OutItem) (ms : BitVec 16) :
    lastWritten r (items ++ [.delay ms]) = lastWritten r items := by
  simp [lastWritten]

theorem ReplaysCanonically.of_writes (h : ReplaysCanonically s) (hst : OnlyWritesAndLogs s t) :
    ReplaysCanonically t := by
  obtain ⟨hwf, hreplay⟩ := h
  obtain ⟨ws, hm, ho⟩ := hst.writes
  refine ⟨hm ▸ State.writeRegs_wf hwf ws, fun r => ?_⟩
  calc t.mirrorAt r
      _ = (s.writeRegs ws).mirrorAt r := by rw [State.mirrorAt, hm, State.mirrorAt]
      _ = lastWritten r t.out := by
        rw [State.mirrorAt_writeRegs hwf, hreplay r, ho, lastWritten_append_writeItems]

theorem ReplaysCanonically.emitDelay (h : ReplaysCanonically s) (ms : BitVec 16) :
    ReplaysCanonically (s.emitDelay ms) :=
  ⟨h.1, fun r => (h.2 r).trans (lastWritten_append_delay r s.out ms).symm⟩

theorem replays_exec {i : Instr} (he : exec i s = .next t) (h : ReplaysCanonically s) :
    ReplaysCanonically t := by
  cases i
  case deltaTime d =>
    obtain rfl | ⟨ms, rfl⟩ | rfl := exec_deltaTime_cases he
    · exact h
    · exact h.emitDelay ms
    · exact h
  all_goals exact h.of_writes (.exec he nofun)

theorem replays_keptByParts : KeptByParts ReplaysCanonically where
  advance _ _ _ h := h
  setRs _ _ _ h := h
  corruptStream s h := h.of_writes (.terminate s _)
  badDataByte _ h := h
  exec _ _ _ he h := replays_exec he h

/-- Settles O15: the invariant is kept by every part of a tick. -/
theorem stepKeepsMirrorReplay : Obligations.StepKeepsMirrorReplay :=
  fun _ _ hwf hreplay hstep => replays_keptByParts.step hstep ⟨hwf, hreplay⟩

end Replay

/-! ### Reset -/

theorem replays_initial (cfg : Config) : ReplaysCanonically (State.initial cfg) :=
  ⟨(legal_initial cfg).mirrorCanonical, fun _ => rfl⟩

/-- Settles O13: reset is legal, and the presets are writes of frequency registers. -/
theorem everyResetIsLegal : Obligations.EveryResetIsLegal := by
  intro cfg s h
  obtain rfl | rfl := resetEngine_eq_ok h
  · exact ⟨legal_initial cfg, (replays_initial cfg).2⟩
  · exact ⟨(legal_initial cfg).writeRegs _ (presetWrites_ordinary _),
      ((replays_initial cfg).of_writes (.writeRegs _ _)).2⟩

/-- Settles O12: the default configuration is one that Reset accepts. -/
theorem resetIsLegal : Obligations.ResetIsLegal :=
  have haccepted : resetEngine Config.default = .ok State.reset := rfl
  ⟨haccepted, everyResetIsLegal _ _ haccepted⟩

/-! ### The instructions of a message -/

section Rows

variable {rest : List Byte} {i : Instr} {used : Nat}

theorem controllerRow_ne_deltaTime (c : Chan) (num val : U7) (d : Nat) : controllerRow c num val ≠ .deltaTime d := by
  unfold controllerRow
  split_ifs <;> nofun

theorem metaRow_ne_deltaTime (b : Byte) (d : Nat) : metaRow b ≠ .deltaTime d := by
  unfold metaRow
  split <;> nofun

theorem decodeSystem_ne_deltaTime {low : Nat} (h : decodeSystem low rest = .instr i used) (d : Nat) :
    i ≠ .deltaTime d := by
  unfold decodeSystem at h
  split at h
  case h_1 => obtain ⟨_, _, rfl⟩ := decodeSysex_row h; nofun
  case h_2 | h_4 => obtain ⟨_, rfl⟩ := rawByte1_row h; nofun
  case h_3 => obtain ⟨_, _, rfl⟩ := rawByte2_row h; nofun
  case h_16 => obtain ⟨p, rfl⟩ := rawByte1_row h; exact metaRow_ne_deltaTime p d
  all_goals cases h; nofun

/-- R96: a delta time is no message. -/
theorem decodeBody_ne_deltaTime {st : Byte} (h : decodeBody st rest = .instr i used) (d : Nat) :
    i ≠ .deltaTime d := by
  unfold decodeBody at h
  split at h
  case h_4 => obtain ⟨d1, d2, rfl⟩ := dataByte2_row h; exact controllerRow_ne_deltaTime _ d1 d2 d
  case h_5 | h_6 => obtain ⟨_, rfl⟩ := dataByte1_row h; nofun
  case h_8 => exact decodeSystem_ne_deltaTime h d
  case h_9 => cases h
  all_goals obtain ⟨_, _, rfl⟩ := dataByte2_row h; nofun

end Rows

/-! ### One Delay, then writes -/

/-- What a tick puts on the ports up to any point: at most one Delay and then register writes, and log entries. -/
structure DelayThenWrites (s t : State) : Prop where
  out : ∃ ds ws, t.out = s.out ++ ds ++ ws ∧ ds.length ≤ 1 ∧ (∀ x ∈ ds, x.isWrite = false) ∧
    ∀ x ∈ ws, x.isWrite = true
  log : ∃ ls, t.log = s.log ++ ls

theorem writeItems_isWrite (ws : List (Byte × Byte)) : ∀ x ∈ writeItems ws, x.isWrite = true := by
  intro x hx
  obtain ⟨w, -, rfl⟩ := List.mem_map.mp hx
  rfl

section Items

variable {s t u : State}

theorem DelayThenWrites.refl (s : State) : DelayThenWrites s s :=
  ⟨⟨[], [], by simp, by simp, nofun, nofun⟩, ⟨[], by simp⟩⟩

theorem DelayThenWrites.delay (s : State) (ms : BitVec 16) : DelayThenWrites s (s.emitDelay ms) :=
  ⟨⟨[.delay ms], [], by simp, by simp, by simp [OutItem.isWrite], nofun⟩, ⟨[], by simp⟩⟩

theorem DelayThenWrites.then_writes (h : DelayThenWrites s t) (h' : OnlyWritesAndLogs t u) :
    DelayThenWrites s u := by
  obtain ⟨⟨ds, ws, ho, hlen, hds, hws⟩, ls, hl⟩ := h
  obtain ⟨⟨ws', -, ho'⟩, ls', hl'⟩ := h'
  refine ⟨⟨ds, ws ++ writeItems ws', by rw [ho', ho, List.append_assoc], hlen, hds, ?_⟩, ls ++ ls', by
    rw [← hl', hl, List.append_assoc]⟩
  exact List.forall_mem_append.mpr ⟨hws, writeItems_isWrite ws'⟩

/-- R150: no status selects a delta time, so a message writes and logs only. -/
theorem dispatch_onlyWrites {st : Byte} (h : dispatch st s = .next t) : OnlyWritesAndLogs s t := by
  unfold dispatch at h
  split at h
  case h_1 i used hdec =>
    exact (OnlyWritesAndLogs.advance s used).trans
      (.exec h (decodeBody_ne_deltaTime hdec))
  case h_2 used _ =>
    cases h
    exact (OnlyWritesAndLogs.advance s used).trans (.terminate _ _)
  case h_3 =>
    cases h
    exact .of_same rfl rfl rfl
  case h_4 =>
    cases h
    exact .terminate s _

theorem readMessage_onlyWrites (h : readMessage s = .next t) : OnlyWritesAndLogs s t := by
  unfold readMessage at h
  split at h
  case h_1 =>
    cases h
    exact .terminate s _
  case h_2 b _ _ =>
    split at h
    case isTrue =>
      exact ((OnlyWritesAndLogs.advance s 1).trans (.setRs _ b)).trans (dispatch_onlyWrites h)
    case isFalse =>
      refine andThen_keeps (P := OnlyWritesAndLogs s) h (fun u hu => ?_) fun u hu hk =>
        hu.trans (dispatch_onlyWrites hk)
      exact (OnlyWritesAndLogs.advance s 1).trans (.exec hu nofun)

/-- The parts of an event in their order: DELTA_TIME's Delay, then the message. -/
theorem readEvent_delayThenWrites (h : readEvent s = .next t) : DelayThenWrites s t := by
  unfold readEvent at h
  split at h
  case h_1 used _ =>
    cases h
    exact (DelayThenWrites.refl s).then_writes
      ((OnlyWritesAndLogs.advance s used).trans (.terminate _ _))
  case h_2 d used _ =>
    refine andThen_keeps (P := DelayThenWrites s) h (fun u hu => ?_) fun u hu hk =>
      hu.then_writes (readMessage_onlyWrites hk)
    obtain rfl | ⟨ms, rfl⟩ | rfl := exec_deltaTime_cases hu
    · exact (DelayThenWrites.refl s).then_writes (.of_same rfl rfl rfl)
    · exact (DelayThenWrites.delay s ms).then_writes (.of_same rfl rfl rfl)
    · exact (DelayThenWrites.refl s).then_writes (.of_same rfl rfl rfl)

/-- Settles O19: a tick is one event or, where the engine is not Running, nothing. -/
theorem tickEmitsOneDelayThenWrites : Obligations.TickEmitsOneDelayThenWrites := by
  intro s t h
  have hports : DelayThenWrites s t := by
    unfold step tick at h
    split_ifs at h
    · cases h
      exact .refl s
    · exact readEvent_delayThenWrites h
  exact ⟨hports.out, hports.log⟩

end Items

end Sys2Proof.Proofs.PortHistory

/-! PROOFS. What each instruction writes (10_state R26 to R32), and the instructions with a single effect. -/

namespace Sys2Proof.Proofs.InstructionFrames

open Sys2Proof Sys2Proof.Machine Sys2Proof.Proofs.Configuration Sys2Proof.Proofs.HostLoop
open Sys2Proof.Proofs.ControllerDispatch Sys2Proof.Proofs.PortHistory Sys2Proof.Proofs.Ports
open Sys2Proof.Proofs.NoteOff

/-! ### The note messages -/

/-- `t` differs from `s` at most in what a note message may write: RUN (the counter's fault), NC, V, the mirror and
the two ports. -/
structure KeepsSettings (s t : State) : Prop where
  cfg : t.cfg = s.cfg
  ptr : t.ptr = s.ptr
  rs : t.rs = s.rs
  rhy : t.rhy = s.rhy
  tr : t.tr = s.tr
  ch : t.ch = s.ch

namespace KeepsSettings

variable {s t u : State}

theorem trans (h : KeepsSettings s t) (h' : KeepsSettings t u) : KeepsSettings s u :=
  ⟨h'.cfg.trans h.cfg, h'.ptr.trans h.ptr, h'.rs.trans h.rs, h'.rhy.trans h.rhy, h'.tr.trans h.tr,
    h'.ch.trans h.ch⟩

theorem warn (s : State) (e : LogEntry) : KeepsSettings s (s.warn e) := ⟨rfl, rfl, rfl, rfl, rfl, rfl⟩

theorem writeRegs (s : State) (ws : List (Byte × Byte)) : KeepsSettings s (s.writeRegs ws) := by
  constructor <;> simp

theorem writeReg (s : State) (r x : Byte) : KeepsSettings s (s.writeReg r x) := ⟨rfl, rfl, rfl, rfl, rfl, rfl⟩

theorem warnFreq (s : State) (c : Chan) (n : U7) : KeepsSettings s (s.warnFreq c n) := by
  constructor <;> simp

theorem warnSteal (s : State) (k : U7) : KeepsSettings s (warnSteal s k) := by
  constructor <;> simp

theorem rebind (v : VoiceId) (k : U7) (s : State) : KeepsSettings s (rebind v k s) := by
  constructor <;> rw [rebind_frame]

theorem bindPerc (d : Drum) (k : U7) (s : State) : KeepsSettings s (bindPerc d k s) := by
  constructor <;> rw [bindPerc_frame]

theorem writeLevel (d : Drum) (vel : U7) (s : State) : KeepsSettings s (writeLevel d vel s) := by
  cases d <;> exact ⟨rfl, rfl, rfl, rfl, rfl, rfl⟩

theorem setVoice (s : State) (i : VoiceId) (x : Voice) : KeepsSettings s (s.setVoice i x) :=
  ⟨rfl, rfl, rfl, rfl, rfl, rfl⟩

theorem stamp (s : State) (i : VoiceId) (n : U7) (c : Chan) : KeepsSettings s (s.stamp i n c) :=
  ⟨rfl, rfl, rfl, rfl, rfl, rfl⟩

theorem raiseFault (s : State) (c : FaultCode) : KeepsSettings s (s.raiseFault c) := ⟨rfl, rfl, rfl, rfl, rfl, rfl⟩

theorem melNoteOn (c : Chan) (n : U7) (blk fn : Nat) (s : State) :
    KeepsSettings s (melNoteOn c n blk fn s) := by
  have hbound := (warnSteal s (s.channel c).instrument).trans
    (rebind (findVoice s (s.channel c).instrument) (s.channel c).instrument _)
  unfold Machine.melNoteOn
  dsimp only
  split_ifs
  · exact hbound.trans (raiseFault _ _)
  · exact (hbound.trans (stamp _ _ n c)).trans (writeRegs _ _)

theorem percNoteOn (d : Drum) (c : Chan) (n vel : U7) (blk fn : Nat) (s : State) :
    KeepsSettings s (percNoteOn d c n vel blk fn s) := by
  have hretriggered : KeepsSettings s
      (setDrum d (clearDrum d (Machine.writeLevel d vel (Machine.bindPerc d (s.channel c).instrument s)))) :=
    (((bindPerc d _ s).trans (writeLevel d vel _)).trans (writeReg _ _ _)).trans (writeReg _ _ _)
  unfold Machine.percNoteOn
  dsimp only
  split_ifs
  · exact (hretriggered.trans (writeRegs _ _)).trans (raiseFault _ _)
  · exact (hretriggered.trans (writeRegs _ _)).trans (stamp _ _ n c)

theorem noteOn (c : Chan) (n vel : U7) (s : State) : KeepsSettings s (noteOn c n vel s) := by
  unfold Machine.noteOn
  dsimp only
  split
  · exact (warnFreq s c n).trans (percNoteOn ..)
  · exact (warnFreq s c n).trans (melNoteOn ..)

theorem noteOff (c : Chan) (n : U7) (s : State) : KeepsSettings s (noteOff c n s) := by
  unfold Machine.noteOff
  split
  · unfold percNoteOff
    split_ifs
    · exact (writeReg s _ _).trans (setVoice _ _ _)
    · exact warn s _
  · unfold melNoteOff
    split
    · exact (setVoice s _ _).trans (writeReg _ _ _)
    · exact warn s _

end KeepsSettings

theorem noteOff_nc (c : Chan) (n : U7) (s : State) : (noteOff c n s).nc = s.nc := by
  unfold noteOff percNoteOff melNoteOff
  split
  · split_ifs <;> rfl
  · split <;> rfl

theorem noteOff_run (c : Chan) (n : U7) (s : State) : (noteOff c n s).run = s.run := by
  unfold noteOff percNoteOff melNoteOff
  split
  · split_ifs <;> rfl
  · split <;> rfl

@[simp] theorem rebind_run (v : VoiceId) (k : U7) (s : State) : (rebind v k s).run = s.run := by
  rw [rebind_frame]

@[simp] theorem bindPerc_run (d : Drum) (k : U7) (s : State) : (bindPerc d k s).run = s.run := by
  rw [bindPerc_frame]

@[simp] theorem writeLevel_run (d : Drum) (vel : U7) (s : State) : (writeLevel d vel s).run = s.run := by
  cases d <;> rfl

/-- R255: the only raise of a note-on is the counter's. -/
theorem noteOn_run (c : Chan) (n vel : U7) (s : State) :
    (noteOn c n vel s).run = s.run ∨ (noteOn c n vel s).run = .faulted .noteCounterOverflow := by
  unfold noteOn percNoteOn melNoteOn
  dsimp only
  split
  · split_ifs
    · exact .inr rfl
    · exact .inl (by simp [setDrum, clearDrum])
  · split_ifs
    · exact .inr rfl
    · exact .inl (by simp)

/-! ### The controllers -/

theorem controllerEffect_rhy {num : U7} (h : num ≠ 0x67) (val : U7) (s : State) :
    (controllerEffect num val s).rhy = s.rhy := by
  rw [controllerEffect, if_neg h]
  split_ifs <;> rfl

theorem ctrlRhythm_tr (val : U7) (s : State) : (ctrlRhythm val s).tr = s.tr := by
  rw [ctrlRhythm_frame]

theorem controllerEffect_tr {num : U7} (hup : num ≠ 0x68) (hdown : num ≠ 0x69) (val : U7) (s : State) :
    (controllerEffect num val s).tr = s.tr := by
  rw [controllerEffect, if_neg hup, if_neg hdown]
  split_ifs
  · rfl
  · rfl
  · exact ctrlRhythm_tr val s
  · rfl

/-! ### Every instruction -/

/-- Settles O21: the note messages stay within their frame, the controllers within theirs, and every other row
writes at most one field of its own. -/
theorem onlyTheNamedInstructionsWrite : Obligations.OnlyTheNamedInstructionsWrite := by
  intro i s t h
  cases i
  case deltaTime d =>
    obtain rfl | ⟨ms, rfl⟩ | rfl := exec_deltaTime_cases h <;>
      exact ⟨rfl, rfl, fun _ _ => rfl, fun _ _ _ _ => rfl, fun _ _ => rfl, fun _ => rfl, fun _ _ => rfl,
        fun _ => rfl⟩
  case noteOff c n vel =>
    cases h
    obtain ⟨hcfg, hptr, hrs, hrhy, htr, hch⟩ := KeepsSettings.noteOff c n s
    exact ⟨hrs, hcfg, fun _ _ => hrhy, fun _ _ _ _ => htr, fun _ _ => hch, fun _ => noteOff_nc c n s,
      fun _ hoff => absurd rfl (hoff c n vel), fun _ => hptr⟩
  case noteOn c n vel =>
    have hkeeps : KeepsSettings s t := by
      simp only [exec, execNoteOn] at h
      split_ifs at h <;> cases h
      · exact .noteOff c n s
      · exact .noteOn c n vel s
    obtain ⟨hcfg, hptr, hrs, hrhy, htr, hch⟩ := hkeeps
    exact ⟨hrs, hcfg, fun _ _ => hrhy, fun _ _ _ _ => htr, fun _ _ => hch, fun hon => absurd rfl (hon c n vel),
      fun hon _ => absurd rfl (hon c n vel), fun _ => hptr⟩
  case controller c num val =>
    cases h
    have hframe := controllerEffect_frame num val s
    refine ⟨by rw [hframe], controllerEffect_cfg num val s, fun _ hne => controllerEffect_rhy ?_ val s,
      fun _ _ hup hdown => controllerEffect_tr ?_ ?_ val s, fun _ _ => controllerEffect_ch num val s,
      fun _ => by rw [hframe], fun _ _ => controllerEffect_v num val s, fun _ => by rw [hframe]⟩
    · rintro rfl; exact hne c val rfl
    · rintro rfl; exact hup c val rfl
    · rintro rfl; exact hdown c val rfl
  case ctrlRhythm c val =>
    cases h
    have hframe := ctrlRhythm_frame val s
    exact ⟨by rw [hframe], by rw [hframe], fun hne => absurd rfl (hne c val), fun _ _ _ _ => by rw [hframe],
      fun _ _ => by rw [hframe], fun _ => by rw [hframe], fun _ _ => by rw [hframe], fun _ => by rw [hframe]⟩
  case ctrlTransposeUp c val =>
    cases h
    exact ⟨rfl, rfl, fun _ _ => rfl, fun hne => absurd rfl (hne c val), fun _ _ => rfl, fun _ => rfl,
      fun _ _ => rfl, fun _ => rfl⟩
  case ctrlTransposeDown c val =>
    cases h
    exact ⟨rfl, rfl, fun _ _ => rfl, fun _ hne => absurd rfl (hne c val), fun _ _ => rfl, fun _ => rfl,
      fun _ _ => rfl, fun _ => rfl⟩
  case program c p =>
    cases h
    exact ⟨rfl, rfl, fun _ _ => rfl, fun _ _ _ _ => rfl, fun hne => absurd rfl (hne c p), fun _ => rfl,
      fun _ _ => rfl, fun _ => rfl⟩
  case pitchBend c lsb msb =>
    cases h
    exact ⟨rfl, rfl, fun _ _ => rfl, fun _ _ _ _ => rfl, fun _ hne => absurd rfl (hne c lsb msb), fun _ => rfl,
      fun _ _ => rfl, fun _ => rfl⟩
  case runningStatus x =>
    simp only [exec, execRunningStatus] at h
    split_ifs at h <;> cases h <;>
      exact ⟨rfl, rfl, fun _ _ => rfl, fun _ _ _ _ => rfl, fun _ _ => rfl, fun _ => rfl, fun _ _ => rfl,
        fun hne => absurd rfl (hne x)⟩
  all_goals
    cases h
    exact ⟨rfl, rfl, fun _ _ => rfl, fun _ _ _ _ => rfl, fun _ _ => rfl, fun _ => rfl, fun _ _ => rfl,
      fun _ => rfl⟩

/-! ### The channel messages (42_channel_messages) -/

/-- Settles O24: the channel table is written at the message's channel. -/
theorem programSetsTheInstrument : Obligations.ProgramSetsTheInstrument := fun c p s =>
  ⟨s.setChannel c { s.channel c with instrument := p }, rfl, s.channel_setChannel_same c _,
    fun _ hc => s.channel_setChannel_other _ hc, rfl⟩

/-- R94: the two groups of a bend do not overlap. -/
theorem bendValue_toNat (lsb msb : U7) : (bendValue lsb msb).toNat = lsb.toNat + 128 * msb.toNat := by
  have hlsb := lsb.isLt
  have hmsb := msb.isLt
  have hor : (bendValue lsb msb).toNat = msb.toNat <<< 7 ||| lsb.toNat := by
    rw [bendValue, BitVec.toNat_or, BitVec.toNat_shiftLeft, BitVec.toNat_setWidth, BitVec.toNat_setWidth,
      Nat.mod_eq_of_lt (by omega), Nat.mod_eq_of_lt (a := msb.toNat) (by omega),
      Nat.mod_eq_of_lt (by rw [Nat.shiftLeft_eq]; omega), Nat.or_comm]
  rw [hor, ← Nat.shiftLeft_add_eq_or_of_lt hlsb, Nat.shiftLeft_eq]
  omega

/-- Settles O25: as O24, with the bend's two groups added up. -/
theorem pitchBendSetsTheBend : Obligations.PitchBendSetsTheBend := by
  intro c lsb msb s
  refine ⟨s.setChannel c { s.channel c with bend := bendValue lsb msb }, rfl, ?bend, ?instrument,
    fun _ hc => s.channel_setChannel_other _ hc, rfl⟩
  case bend => rw [State.channel_setChannel_same, bendValue_toNat]
  case instrument => rw [State.channel_setChannel_same]

/-- Settles O26: both messages are a warning. -/
theorem pressureIsOnlyLogged : Obligations.PressureIsOnlyLogged := fun _ _ _ _ => ⟨rfl, rfl⟩

/-! ### The controllers (43_controllers) -/

/-! R202, bit by bit. -/

theorem depthValue_getLsbD_seven (old : Byte) (val : U7) : (depthValue old val).getLsbD 7 = val.getLsbD 1 := by
  simp [depthValue]

theorem depthValue_getLsbD_six (old : Byte) (val : U7) : (depthValue old val).getLsbD 6 = val.getLsbD 0 := by
  simp [depthValue]

theorem depthValue_getLsbD_of_lt (old : Byte) (val : U7) {k : Nat} (hk : k < 6) :
    (depthValue old val).getLsbD k = old.getLsbD k := by
  interval_cases k <;> simp [depthValue]

/-- Settles O29: one write of 0xBD with the depth value. -/
theorem depthBitsFollowTheValue : Obligations.DepthBitsFollowTheValue := by
  intro c val s hwf
  have hvalue : (ctrlAmVib val s).mirrorAt 0xBD = depthValue (s.mirrorAt 0xBD) val :=
    mirrorAt_writeReg_same hwf regBD _
  refine ⟨ctrlAmVib val s, rfl, ?bit7, ?bit6, ?kept, ?emitted, fun r hr => mirrorAt_writeReg_of_ne hwf regBD _ hr,
    writeReg_frame ..⟩
  case bit7 => rw [hvalue, depthValue_getLsbD_seven]
  case bit6 => rw [hvalue, depthValue_getLsbD_six]
  case kept =>
    intro k hk
    rw [hvalue, depthValue_getLsbD_of_lt _ _ hk]
  case emitted => rw [hvalue]; rfl

/-- The value CTRL_RHYTHM writes to 0xBD (R204). Rhythm enable is the bit that KEYON is in 0xB0+v. -/
def rhythmValue (old : Byte) (on : Bool) : Byte :=
  if on then setBits old rhythmBit else clearBits old rhythmBit

theorem rhythmValue_getLsbD_five (old : Byte) (on : Bool) : (rhythmValue old on).getLsbD 5 = on := by
  cases on <;> simp [rhythmValue, setBits, clearBits, rhythmBit]

theorem rhythmValue_getLsbD_of_ne (old : Byte) (on : Bool) {k : Nat} (hk : k ≠ 5) :
    (rhythmValue old on).getLsbD k = old.getLsbD k := by
  cases on with
  | false => exact clearBits_keyOn_getLsbD_of_ne old hk
  | true =>
    have hbit : rhythmBit.getLsbD k = false := (keyOn_getLsbD k).trans (decide_eq_false hk)
    rw [rhythmValue, if_pos rfl, setBits, BitVec.getLsbD_or, hbit, Bool.or_false]

theorem ctrlRhythm_eq (val : U7) (s : State) :
    ctrlRhythm val s =
      (s.setRhythm (decide (val ≠ 0))).writeReg regBD (rhythmValue (s.mirrorAt regBD) (decide (val ≠ 0))) := by
  unfold ctrlRhythm
  split_ifs with hval
  · rw [decide_eq_true hval]
    rfl
  · rw [decide_eq_false hval]
    rfl

/-- Settles O30: RHY and one write of 0xBD, both from the value. -/
theorem rhythmBitFollowsTheValue : Obligations.RhythmBitFollowsTheValue := by
  intro c val s hwf
  have hvalue : ((s.setRhythm (decide (val ≠ 0))).writeReg regBD
      (rhythmValue (s.mirrorAt regBD) (decide (val ≠ 0)))).mirrorAt 0xBD =
        rhythmValue (s.mirrorAt 0xBD) (decide (val ≠ 0)) :=
    mirrorAt_writeReg_same (s := s.setRhythm _) hwf regBD _
  refine ⟨_, congrArg Host.Outcome.next (ctrlRhythm_eq val s), rfl, ?bit, ?kept, ?emitted,
    fun r hr => mirrorAt_writeReg_of_ne (s := s.setRhythm _) hwf regBD _ hr, rfl⟩
  case bit => rw [hvalue, rhythmValue_getLsbD_five]
  case kept =>
    intro k hk
    rw [hvalue, rhythmValue_getLsbD_of_ne _ _ hk]
  case emitted => rw [hvalue]; rfl

/-- Settles O31: each overwrites TR with its own reading of the value. -/
theorem transposeOverwrites : Obligations.TransposeOverwrites := fun _ _ _ => ⟨rfl, rfl⟩

/-- Settles O32: both are a warning. -/
theorem ignoredControllersOnlyLog : Obligations.IgnoredControllersOnlyLog := fun _ _ _ _ => ⟨rfl, rfl⟩

/-! ### The system messages (44_system_messages) -/

/-- Settles O34: the payload is read by the tick, and the meaning of each row is to do nothing. -/
theorem skippedPayloadsDoNothing : Obligations.SkippedPayloadsDoNothing := fun _ _ _ => ⟨rfl, rfl, rfl, rfl⟩

/-- Settles O35: each is a warning; what SYSEX echoes is its encoding after the status. -/
theorem systemMessagesOnlyLog : Obligations.SystemMessagesOnlyLog := fun _ _ _ _ =>
  ⟨⟨_, rfl, rfl⟩, rfl, rfl, rfl, rfl, rfl⟩

/-! ### Delta time and running status (41_event_reader) -/

theorem delayMs_of_le (p : DelayPolicy) {ms : Nat} (h : ms ≤ 0xFFFF) : delayMs p ms = some (BitVec.ofNat 16 ms) := by
  unfold delayMs
  rw [if_neg (by omega)]

theorem delayMs_truncate16 {ms : Nat} (h : 0xFFFF < ms) :
    delayMs .truncate16 ms = some (BitVec.ofNat 16 (ms % 65536)) := by
  unfold delayMs
  rw [if_pos h]

theorem delayMs_saturate {ms : Nat} (h : 0xFFFF < ms) : delayMs .saturate ms = some 0xFFFF := by
  unfold delayMs
  rw [if_pos h]

theorem exec_deltaTime {d : Nat} {s : State} (hd : d ≠ 0) (htps : s.cfg.tps ≠ 0) :
    exec (.deltaTime d) s = .next (emitDelta d s) := by
  simp only [exec, execDeltaTime, hd, htps, if_false]

theorem emitDelta_of_delayMs {d : Nat} {s : State} {ms : BitVec 16}
    (h : delayMs s.cfg.delayPolicy (exactMs d s.cfg.tps) = some ms) : emitDelta d s = s.emitDelay ms := by
  rw [emitDelta, h]

/-- Settles O22: the Delay is DelayMs of the exact time, by its bound and its policy. -/
theorem deltaTimeEmitsItsDelay : Obligations.DeltaTimeEmitsItsDelay := by
  intro d s
  refine ⟨?zero, fun hd htps hle => ?fits,
    fun hd htps hgt => ⟨fun hp => ?fault, fun hp => ?truncate, fun hp => ?saturate⟩⟩
  case zero => rintro rfl; rfl
  case fits =>
    refine ⟨BitVec.ofNat 16 (exactMs d s.cfg.tps), ?_, ?_⟩
    · exact Nat.mod_eq_of_lt (Nat.lt_succ_of_le hle)
    · rw [exec_deltaTime hd htps, emitDelta_of_delayMs (delayMs_of_le _ hle)]
      rfl
  case fault =>
    have hnone : delayMs s.cfg.delayPolicy (exactMs d s.cfg.tps) = none := (delayMs_eq_none _ _).mpr ⟨hgt, hp⟩
    rw [exec_deltaTime hd htps, emitDelta, hnone]
    rfl
  case truncate =>
    refine ⟨BitVec.ofNat 16 (exactMs d s.cfg.tps % 65536), ?_, ?_⟩
    · exact Nat.mod_mod ..
    · rw [exec_deltaTime hd htps, emitDelta_of_delayMs (hp ▸ delayMs_truncate16 hgt)]
      rfl
  case saturate =>
    rw [exec_deltaTime hd htps, emitDelta_of_delayMs (hp ▸ delayMs_saturate hgt)]
    rfl

theorem exec_runningStatus_stored (x : U7) {s : State} (h : s.rs.msb = true) :
    exec (.runningStatus x) s = .next s.rewind := by
  simp only [exec, execRunningStatus, h, if_true]

theorem exec_runningStatus_none (x : U7) {s : State} (h : s.rs.msb = false) :
    exec (.runningStatus x) s = .next (s.rewind.terminate .corruptStream) := by
  simp [exec, execRunningStatus, h]

/-- Settles O23: the rewind, and the termination where no status is stored. -/
theorem runningStatusGivesTheByteBack : Obligations.RunningStatusGivesTheByteBack := fun x _ =>
  ⟨fun h => exec_runningStatus_stored x h, fun h => exec_runningStatus_none x h⟩

end Sys2Proof.Proofs.InstructionFrames

/-! PROOFS. One tick, part by part (41_event_reader R150 to R162): the message an event decodes to, the ends of one
that does not decode, and how PTR moves. -/

namespace Sys2Proof.Proofs.Tick

open Sys2Proof Sys2Proof.Machine Sys2Proof.Proofs.TickInvariant Sys2Proof.Proofs.Configuration
open Sys2Proof.Proofs.HostLoop Sys2Proof.Proofs.PortHistory Sys2Proof.Proofs.InstructionFrames

/-! ### What each part of a tick goes on with -/

section Parts

variable {s s1 : State} {b : Byte} {rest : List Byte}

theorem andThen_of_running {o : Outcome} {k : State → Outcome} (ho : o = .next s) (h : s.run = .running) :
    andThen o k = k s := by
  rw [ho, andThen, if_pos h]

theorem andThen_of_stopped {o : Outcome} {k : State → Outcome} (ho : o = .next s) (h : s.run ≠ .running) :
    andThen o k = .next s := by
  rw [ho, andThen, if_neg h]

theorem readEvent_truncated {n : Nat} (h : decodeVlq s.remaining = .truncated n) :
    readEvent s = .next ((s.advance n).terminate .corruptStream) := by
  rw [readEvent, h]

theorem readEvent_value {d n : Nat} (h : decodeVlq s.remaining = .value d n) :
    readEvent s = andThen (exec (.deltaTime d) (s.advance n)) readMessage := by
  rw [readEvent, h]

/-- R150: the message is read where DELTA_TIME has left the engine Running. -/
theorem step_readMessage {d n : Nat} (hrun : s.run = .running) (htps : s.cfg.tps ≠ 0)
    (hdelta : decodeVlq s.remaining = .value d n) (hexec : exec (.deltaTime d) (s.advance n) = .next s1)
    (hrun1 : s1.run = .running) : step s = readMessage s1 := by
  rw [step_running hrun htps, readEvent_value hdelta, andThen_of_running hexec hrun1]

theorem readMessage_nil (h : s.remaining = []) : readMessage s = .next (s.terminate .corruptStream) := by
  rw [readMessage, h]

theorem remaining_after_first (h : s.remaining = b :: rest) : (s.advance 1).remaining = rest := by
  rw [State.remaining_advance, h, List.drop_one, List.tail_cons]

/-- R150: a status byte is stored and its message dispatched. -/
theorem readMessage_status (h : s.remaining = b :: rest) (hb : b.msb = true) :
    readMessage s = dispatch b ((s.advance 1).setRs b) := by
  simp only [readMessage, h, hb, if_true]

theorem rewind_advance (s : State) : (s.advance 1).rewind = s := rfl

/-- R156: reading a byte with bit 7 clear and giving it back leaves the state as it was, where a status is stored. -/
theorem exec_runningStatus_after_first (x : U7) (hrs : s.rs.msb = true) :
    exec (.runningStatus x) (s.advance 1) = .next s := exec_runningStatus_stored x hrs

theorem readMessage_runningStatus (h : s.remaining = b :: rest) (hb : b.msb = false) :
    readMessage s = andThen (exec (.runningStatus (low7 b)) (s.advance 1)) fun s' => dispatch s'.rs s' := by
  simp [readMessage, h, hb]

theorem readMessage_stored (h : s.remaining = b :: rest) (hb : b.msb = false) (hrs : s.rs.msb = true)
    (hrun : s.run = .running) : readMessage s = dispatch s.rs s := by
  rw [readMessage_runningStatus h hb, andThen_of_running (exec_runningStatus_after_first _ hrs) hrun]

theorem readMessage_noStatus (h : s.remaining = b :: rest) (hb : b.msb = false) (hrs : s.rs.msb = false) :
    readMessage s = .next (s.terminate .corruptStream) := by
  rw [readMessage_runningStatus h hb, andThen_of_stopped (exec_runningStatus_none (s := s.advance 1) _ hrs) (by simp)]
  rfl

theorem dispatch_instr {i : Instr} {k : Nat} (h : decodeBody b s.remaining = .instr i k) :
    dispatch b s = exec i (s.advance k) := by
  rw [dispatch, h]

theorem dispatch_truncated {k : Nat} (h : decodeBody b s.remaining = .truncated k) :
    dispatch b s = .next ((s.advance k).terminate .corruptStream) := by
  rw [dispatch, h]

theorem dispatch_badDataByte {k : Nat} (h : decodeBody b s.remaining = .badDataByte k) :
    dispatch b s = .next ((s.advance k).raiseFault .badDataByte) := by
  rw [dispatch, h]

end Parts

/-- Settles O7: the parts of a tick over an event that decodes, with a status byte and under the stored one. -/
theorem stepRunsDecodedEvent : Obligations.StepRunsDecodedEvent := by
  intro s s1 d n b rest i k hrun htps hdelta hexec hrun1 hrem
  rw [step_readMessage hrun htps hdelta hexec hrun1]
  refine ⟨fun hb hdec => ?status, fun hb hrs hdec => ⟨exec_runningStatus_after_first _ hrs, ?stored⟩⟩
  case status =>
    rw [readMessage_status hrem hb]
    exact dispatch_instr (by rwa [State.remaining_setRs, remaining_after_first hrem])
  case stored =>
    rw [readMessage_stored hrem hb hrs hrun1]
    exact dispatch_instr (by rwa [hrem])

/-- Settles O8: the parts of a tick over an event that does not decode, by its first bad byte. -/
theorem stepEndsBadEvents : Obligations.StepEndsBadEvents := by
  intro s hrun htps
  refine ⟨fun n hdelta => ?insideDelta,
    fun d n s1 hdelta hexec => ⟨fun hstop => ?stopped, fun hrun1 => ?message⟩⟩
  case insideDelta => rw [step_running hrun htps, readEvent_truncated hdelta]
  case stopped => rw [step_running hrun htps, readEvent_value hdelta, andThen_of_stopped hexec hstop]
  case message =>
    rw [step_readMessage hrun htps hdelta hexec hrun1]
    refine ⟨readMessage_nil, fun b rest hrem hb => ?status, fun b rest hrem hb => ?running⟩
    case status =>
      have hbody : ((s1.advance 1).setRs b).remaining = rest := by
        rw [State.remaining_setRs, remaining_after_first hrem]
      rw [readMessage_status hrem hb]
      exact ⟨fun k hdec => dispatch_truncated (hbody ▸ hdec), fun k hdec => dispatch_badDataByte (hbody ▸ hdec)⟩
    case running =>
      refine ⟨readMessage_noStatus hrem hb, fun hrs k hdec => ?_, fun hrs k hdec => ?_⟩
      · rw [readMessage_stored hrem hb hrs hrun1]
        exact dispatch_truncated (hrem ▸ hdec)
      · rw [readMessage_stored hrem hb hrs hrun1]
        exact dispatch_badDataByte (hrem ▸ hdec)

/-- Settles O10: every part of a tick answers. -/
theorem stepAnswersNext : Obligations.StepAnswersNext := fun _ htps => step_answers htps

/-- Settles O11: both by their check of TPS, the tick's after that of RUN. -/
theorem zeroTpsRefused : Obligations.ZeroTpsRefused := by
  refine ⟨fun s hrun htps => ?tick, fun cfg htps => ?reset⟩
  case tick => rw [step, tick, if_neg (not_not.mpr hrun), if_pos htps]
  case reset => rw [resetEngine, if_pos htps]

/-! ### PTR -/

/-- R24: every part of a tick that reads bytes finds them below L. -/
theorem pointer_keptByParts : KeptByParts (fun s => s.ptr ≤ s.streamLength) where
  advance s n hn hs := by
    rw [State.remaining_length] at hn
    simp only [State.advance_ptr, State.advance_streamLength]
    omega
  setRs _ _ _ hs := hs
  corruptStream s hs := by simpa using hs
  badDataByte _ hs := hs
  exec i s t h hs := by
    have hlength : t.streamLength = s.streamLength := by rw [State.streamLength, exec_cfg h]; rfl
    have hptr : t.ptr ≤ s.ptr := by
      by_cases hi : ∃ x, i = .runningStatus x
      · obtain ⟨x, rfl⟩ := hi
        exact (exec_runningStatus_ptr h).trans_le (Nat.sub_le ..)
      · exact (exec_ptr h fun x hx => hi ⟨x, hx⟩).le
    omega

theorem tps_ne_zero_of_step {s t : State} (hrun : s.run = .running) (h : step s = .next t) : s.cfg.tps ≠ 0 := by
  intro htps
  rw [zeroTpsRefused.1 s hrun htps] at h
  cases h

/-- Settles O17: the tick has read a byte below L, and PTR below L stays at most L. -/
theorem pointerGrowsEachTick : Obligations.PointerGrowsEachTick := by
  intro s t hs h ht
  obtain ⟨hbelow, hgrows⟩ := step_running_ptr h hs (tps_ne_zero_of_step hs h) ht
  have hrange := pointer_keptByParts.step h hbelow.le
  rw [State.streamLength, stepKeepsConfiguration s t h] at hrange
  exact ⟨hgrows, hrange⟩

/-! ### A tick cut short -/

/-- RUN after the reader has met the end of the stream, a clear status or a bad data byte (R304, R306). -/
def CutShort (r : RunStatus) : Prop := r = .ended .corruptStream ∨ r = .faulted .badDataByte

theorem not_cutShort_of_running : ¬ CutShort .running := by simp [CutShort]

/-- `t` differs from `s` in what the reader itself writes: RUN, PTR, RS and the log. -/
def WithinReaderFrame (s t : State) : Prop := t = { s with run := t.run, ptr := t.ptr, rs := t.rs, log := t.log }

section CutShort

variable {s t u : State}

theorem WithinReaderFrame.trans (h : WithinReaderFrame s t) (h' : WithinReaderFrame t u) :
    WithinReaderFrame s u := by
  unfold WithinReaderFrame at *
  rw [h', h]

theorem withinReaderFrame_terminate (s : State) (r : EndReason) : WithinReaderFrame s (s.terminate r) := by
  cases r <;> rfl

/-- An instruction other than RUNNING_STATUS never ends as the reader does. -/
theorem exec_not_cutShort {i : Instr} (h : exec i s = .next t) (hi : ∀ x, i ≠ .runningStatus x)
    (hs : ¬ CutShort s.run) : ¬ CutShort t.run := by
  have hcounter : ¬ CutShort (.faulted .noteCounterOverflow) := by simp [CutShort]
  have hdelay : ¬ CutShort (.faulted .delayOverflow) := by simp [CutShort]
  cases i
  case deltaTime d =>
    obtain rfl | ⟨ms, rfl⟩ | rfl := exec_deltaTime_cases h
    · exact hs
    · exact hs
    · exact hdelay
  case noteOff c n vel =>
    cases h
    rwa [noteOff_run]
  case noteOn c n vel =>
    simp only [exec, execNoteOn] at h
    split_ifs at h <;> cases h
    · rwa [noteOff_run]
    · obtain hrun | hrun := noteOn_run c n vel s <;> rw [hrun]
      · exact hs
      · exact hcounter
  case controller c num val =>
    cases h
    rwa [ControllerDispatch.controllerEffect_run]
  case ctrlRhythm c val =>
    cases h
    rwa [ControllerDispatch.ctrlRhythm_frame]
  case stop | metaEndOfTrack =>
    cases h
    simp [CutShort]
  case runningStatus x => exact absurd rfl (hi x)
  all_goals cases h; exact hs

/-- R160: a message that is cut short has run no instruction. -/
theorem dispatch_cutShort {st : Byte} (h : dispatch st s = .next t) (hs : ¬ CutShort s.run)
    (ht : CutShort t.run) : WithinReaderFrame s t := by
  unfold dispatch at h
  split at h
  case h_1 i used hdec =>
    exact absurd ht (exec_not_cutShort h (decodeBody_ne_runningStatus hdec) hs)
  case h_2 used _ =>
    cases h
    exact WithinReaderFrame.trans (t := s.advance used) rfl (withinReaderFrame_terminate _ _)
  case h_3 =>
    cases h
    rfl
  case h_4 =>
    cases h
    exact withinReaderFrame_terminate s _

theorem withinReaderFrame_runningStatus {x : U7} (h : exec (.runningStatus x) s = .next t) :
    WithinReaderFrame s t := by
  simp only [exec, execRunningStatus] at h
  split_ifs at h <;> cases h <;> rfl

theorem readMessage_cutShort (h : readMessage s = .next t) (hs : s.run = .running) (ht : CutShort t.run) :
    WithinReaderFrame s t := by
  have hrunning : ∀ {u : State}, u.run = .running → ¬ CutShort u.run := fun hu => hu ▸ not_cutShort_of_running
  unfold readMessage at h
  split at h
  case h_1 =>
    cases h
    exact withinReaderFrame_terminate s _
  case h_2 b _ _ =>
    split at h
    case isTrue =>
      exact WithinReaderFrame.trans (t := (s.advance 1).setRs b) rfl (dispatch_cutShort h (hrunning hs) ht)
    case isFalse =>
      obtain ⟨u, hu, ⟨hrun, hk⟩ | ⟨-, rfl⟩⟩ := andThen_eq_next.mp h
      · have hback : WithinReaderFrame s u :=
          WithinReaderFrame.trans (t := s.advance 1) rfl (withinReaderFrame_runningStatus hu)
        exact hback.trans (dispatch_cutShort hk (hrunning hrun) ht)
      · exact WithinReaderFrame.trans (t := s.advance 1) rfl (withinReaderFrame_runningStatus hu)

/-- R160: what a tick that is cut short may have written: the reader's fields, and its own Delay. -/
def CutShortFrame (s t : State) : Prop :=
  t = { s with run := t.run, ptr := t.ptr, rs := t.rs, out := t.out, log := t.log } ∧
    (t.out = s.out ∨ ∃ ms, t.out = s.out ++ [.delay ms])

theorem cutShortFrame_of_reader (h : WithinReaderFrame s t) : CutShortFrame s t := by
  unfold WithinReaderFrame at h
  have hout : t.out = s.out := by rw [h]
  exact ⟨by rw [hout]; exact h, .inl hout⟩

theorem cutShortFrame_of_delay {ms : BitVec 16} {n : Nat}
    (h : WithinReaderFrame ((s.advance n).emitDelay ms) t) : CutShortFrame s t := by
  unfold WithinReaderFrame at h
  have hout : t.out = s.out ++ [.delay ms] := by rw [h]; rfl
  exact ⟨by rw [hout]; exact h, .inr ⟨ms, hout⟩⟩

/-- Settles O20: the reader's frame from the state that DELTA_TIME left, a Delay apart. -/
theorem cutShortTickHasNoEffect : Obligations.CutShortTickHasNoEffect := by
  intro s t hs h ht
  rw [step_running hs (tps_ne_zero_of_step hs h)] at h
  unfold readEvent at h
  split at h
  case h_1 used _ =>
    cases h
    exact cutShortFrame_of_reader
      (WithinReaderFrame.trans (t := s.advance used) rfl (withinReaderFrame_terminate _ _))
  case h_2 d used _ =>
    obtain ⟨u, hu, ⟨hrun, hk⟩ | ⟨-, rfl⟩⟩ := andThen_eq_next.mp h
    · have hmessage := readMessage_cutShort hk hrun ht
      obtain rfl | ⟨ms, rfl⟩ | rfl := exec_deltaTime_cases hu
      · exact cutShortFrame_of_reader (WithinReaderFrame.trans (t := s.advance used) rfl hmessage)
      · exact cutShortFrame_of_delay hmessage
      · cases hrun
    · exact absurd ht (exec_not_cutShort hu nofun (by
        rw [State.advance_run, hs]
        exact not_cutShort_of_running))

end CutShort

end Sys2Proof.Proofs.Tick

/-! PROOFS. The choice of a voice and the drum and binding tables of 45_voice_allocator (R242, R243, R246, R250). -/

namespace Sys2Proof.Proofs.VoiceChoice

open Sys2Proof Sys2Proof.Machine

section Scan

variable {s : State} {k : U7}

/-! ### The scan for a free voice -/

/-- The scan of voices in falling order ends at the first free one that holds the instrument: the highest. -/
theorem scanFree_eq_highest_match {l : List VoiceId} {cand : Option VoiceId} {i : VoiceId}
    (hsorted : l.Pairwise (· > ·)) (hi : i ∈ l) (hfree : s.isFree i = true)
    (hholds : (s.voice i).instrument = some k)
    (habove : ∀ j ∈ l, i < j → s.isFree j = true → (s.voice j).instrument ≠ some k) :
    scanFree s k l cand = some i := by
  induction l generalizing cand with
  | nil => cases hi
  | cons j l ih =>
    obtain ⟨hhead, htail⟩ := List.pairwise_cons.mp hsorted
    rcases List.mem_cons.mp hi with rfl | hil
    · rw [scanFree, if_pos hfree, if_pos hholds]
    · have hnext : ∀ cand, scanFree s k l cand = some i := fun _ =>
        ih htail hil fun j' hj' => habove j' (List.mem_cons_of_mem _ hj')
      rw [scanFree]
      split_ifs with hj hjk
      · exact absurd hjk (habove j List.mem_cons_self (hhead i hil) hj)
      · exact hnext _
      · exact hnext _

/-- Voices that are not free leave the candidate as it is. -/
theorem scanFree_of_none_free {l : List VoiceId} (cand : Option VoiceId) (h : ∀ j ∈ l, s.isFree j = false) :
    scanFree s k l cand = cand := by
  induction l with
  | nil => rfl
  | cons j l ih =>
    obtain ⟨hj, hl⟩ := List.forall_mem_cons.mp h
    rw [scanFree, hj]
    exact ih hl

/-- Where no free voice holds the instrument, the candidate that remains is the last free one: the lowest. -/
theorem scanFree_eq_lowest {l : List VoiceId} {cand : Option VoiceId} {i : VoiceId}
    (hsorted : l.Pairwise (· > ·)) (hi : i ∈ l) (hfree : s.isFree i = true)
    (hnone : ∀ j ∈ l, s.isFree j = true → (s.voice j).instrument ≠ some k)
    (hbelow : ∀ j, j < i → s.isFree j = false) : scanFree s k l cand = some i := by
  induction l generalizing cand with
  | nil => cases hi
  | cons j l ih =>
    obtain ⟨hhead, htail⟩ := List.pairwise_cons.mp hsorted
    obtain ⟨hj, hl⟩ := List.forall_mem_cons.mp hnone
    rcases List.mem_cons.mp hi with rfl | hil
    · rw [scanFree, if_pos hfree, if_neg (hj hfree)]
      exact scanFree_of_none_free _ fun j' hj' => hbelow j' (hhead j' hj')
    · rw [scanFree]
      split_ifs with hjfree hjk
      · exact absurd hjk (hj hjfree)
      · exact ih htail hil hl
      · exact ih htail hil hl

/-! ### The scan for the oldest voice -/

/-- The scan of voices in rising order keeps the first one with the smallest stamp. -/
theorem oldestFrom_eq {l : List VoiceId} {best i : VoiceId} (hsorted : (best :: l).Pairwise (· ≤ ·))
    (hi : i ∈ best :: l) (hleast : ∀ j ∈ best :: l, (s.voice i).noteStart ≤ (s.voice j).noteStart)
    (hfirst : ∀ j, j < i → (s.voice i).noteStart ≠ (s.voice j).noteStart) : oldestFrom s best l = i := by
  induction l generalizing best with
  | nil => exact (List.mem_singleton.mp hi).symm
  | cons j l ih =>
    have hij := hleast j (by simp)
    have hib := hleast best (by simp)
    have hbj : best ≤ j := (List.pairwise_cons.mp hsorted).1 j (by simp)
    rw [oldestFrom]
    split_ifs with hlt
    · refine ih (List.pairwise_cons.mp hsorted).2 ?_ fun j' hj' => hleast j' (List.mem_cons_of_mem _ hj')
      rcases List.mem_cons.mp hi with rfl | hil
      · omega
      · exact hil
    · have hsub : (best :: l).Sublist (best :: j :: l) := (List.sublist_cons_self j l).cons_cons best
      refine ih (hsorted.sublist hsub) ?_ fun j' hj' => hleast j' (hsub.subset hj')
      rcases List.mem_cons.mp hi with rfl | hil
      · exact List.mem_cons_self
      · rcases List.mem_cons.mp hil with rfl | hil
        · by_cases hbi : best = i
          · exact hbi ▸ List.mem_cons_self
          · exact absurd (by omega) (hfirst best (lt_of_le_of_ne hbj hbi))
        · exact List.mem_cons_of_mem _ hil

end Scan

/-! ### The chosen voice -/

theorem melodicVoices_reverse_sorted (rhy : Bool) : (melodicVoices rhy).reverse.Pairwise (· > ·) := by
  cases rhy <;> decide

theorem melodicVoices_sorted (rhy : Bool) : (0 :: melodicVoices rhy).Pairwise (· ≤ ·) := by
  cases rhy <;> decide

theorem mem_melodicVoices_reverse {s : State} {i : VoiceId} :
    i ∈ (melodicVoices s.rhy).reverse ↔ isMelodicVoice s i := by
  rw [List.mem_reverse, mem_melodicVoices]
  rfl

theorem zero_isMelodicVoice (s : State) : isMelodicVoice s 0 := by
  unfold isMelodicVoice
  cases s.rhy <;> decide

theorem findVoice_of_free {s : State} {k : U7} {i : VoiceId} (h : freeVoice s k = some i) :
    findVoice s k = i := by
  rw [findVoice, h, Option.getD_some]

/-- Settles O38: the two scans over the melodic voices, in falling and in rising order. -/
theorem findVoiceChoosesTheSpecifiedVoice : Obligations.FindVoiceChoosesTheSpecifiedVoice := by
  intro s k
  refine ⟨findVoice_lt s k, fun i hmel hfree hholds habove => ?highestMatch,
    fun i hmel hfree hnone hbelow => ?lowestFree, fun i hmel hbusy hleast hfirst => ?oldest⟩
  case highestMatch =>
    exact findVoice_of_free (scanFree_eq_highest_match (melodicVoices_reverse_sorted _)
      (mem_melodicVoices_reverse.mpr hmel) hfree hholds fun j hj => habove j (mem_melodicVoices_reverse.mp hj))
  case lowestFree =>
    exact findVoice_of_free (scanFree_eq_lowest (melodicVoices_reverse_sorted _)
      (mem_melodicVoices_reverse.mpr hmel) hfree (fun j hj => hnone j (mem_melodicVoices_reverse.mp hj)) hbelow)
  case oldest =>
    have hnone : freeVoice s k = none := (freeVoice_eq_none s k).mpr hbusy
    rw [findVoice, hnone, Option.getD_none]
    refine oldestFrom_eq (melodicVoices_sorted _) ?_ ?_ hfirst
    · exact List.mem_cons_of_mem _ ((mem_melodicVoices _ i).mpr hmel)
    · exact List.forall_mem_cons.mpr ⟨hleast 0 (zero_isMelodicVoice s),
        fun j hj => hleast j ((mem_melodicVoices _ j).mp hj)⟩

/-! ### The drums and the binding -/

/-- The channel of a drum (R250). -/
def drumChannel : Drum → Chan
  | .bass => 11
  | .snare => 12
  | .tom => 13
  | .cymbal => 14
  | .hihat => 15

theorem drumOfChannel_eq_some {c : Chan} {d : Drum} : drumOfChannel c = some d ↔ c = drumChannel d := by
  revert c
  cases d <;> decide

/-- Settles O43: each drum is that of its own channel, where its voice and bit are read off. -/
theorem drumTable : Obligations.DrumTable := by
  refine ⟨by decide, fun c d hd => ?_⟩
  obtain rfl := drumOfChannel_eq_some.mp hd
  cases d <;> decide

/-- Settles O47: the carrier's offset is three above the modulator's. -/
theorem bindingWritesElevenRegisters : Obligations.BindingWritesElevenRegisters := by
  rintro v i m rfl
  have hcar : ∀ base, base + carOffset v = base + 3 + (v.val / 3 * 8 + v.val % 3) := fun base => by
    unfold carOffset opOffset
    omega
  simp only [bindWrites, operatorWrites, reg20, reg40, reg60, reg80, regE0, regC0, hcar]
  rfl

end Sys2Proof.Proofs.VoiceChoice

/-! PROOFS. The note-ons of 45_voice_allocator (R241, R251, R255, R258, R260), melodic and percussion: the register
writes and the voice of each, up to the stamp and with it. -/

namespace Sys2Proof.Proofs.NoteOn

open Sys2Proof Sys2Proof.Machine Sys2Proof.Proofs.NoteMessages Sys2Proof.Proofs.NoteOff
open Sys2Proof.Proofs.InstructionFrames Sys2Proof.Proofs.VoiceChoice Sys2Proof.Proofs.Ports

/-! ### Known register writes -/

/-- `t` comes from `s` by exactly the writes `ws`, in the mirror and on the output port. -/
structure Emits (s t : State) (ws : List (Byte × Byte)) : Prop where
  mirror : t.mirror = (s.writeRegs ws).mirror
  out : t.out = s.out ++ writeItems ws

section Emits

variable {s t u : State} {ws ws' : List (Byte × Byte)}

theorem Emits.mirrorAt (h : Emits s t ws) (r : Byte) : t.mirrorAt r = (s.writeRegs ws).mirrorAt r := by
  rw [State.mirrorAt, h.mirror, State.mirrorAt]

theorem Emits.mirrorAt_written (h : Emits s t ws) (hwf : Memory.wf s.mirror) (r : Byte)
    (hr : ∃ w ∈ ws, w.1 = r) : t.mirrorAt r = lastWritten r (writeItems ws) :=
  (h.mirrorAt r).trans (State.mirrorAt_writeRegs_mem hwf ws r hr)

theorem Emits.mirrorAt_other (h : Emits s t ws) (hwf : Memory.wf s.mirror) (r : Byte)
    (hr : ∀ w ∈ ws, w.1 ≠ r) : t.mirrorAt r = s.mirrorAt r :=
  (h.mirrorAt r).trans (State.mirrorAt_writeRegs_other hwf ws r hr)

theorem writeItems_append (ws ws' : List (Byte × Byte)) : writeItems (ws ++ ws') = writeItems ws ++ writeItems ws' :=
  List.map_append

/-- More writes from a state with the same ports. -/
theorem Emits.then_writeRegs (h : Emits s t ws) (hm : u.mirror = t.mirror) (ho : u.out = t.out) :
    Emits s (u.writeRegs ws') (ws ++ ws') where
  mirror := by
    rw [State.writeRegs_append, PortHistory.OnlyWritesAndLogs.writeRegs_mirror_congr (hm.trans h.mirror)]
  out := by rw [State.writeRegs_out, ho, h.out, writeItems_append, List.append_assoc]; rfl

theorem Emits.of_same_ports (h : Emits s t ws) (hm : u.mirror = t.mirror) (ho : u.out = t.out) : Emits s u ws :=
  ⟨hm.trans h.mirror, ho.trans h.out⟩

end Emits

/-! ### The F-number of a note-on -/

theorem fnumLow_eq (fn : Nat) : fnumLow fn = BitVec.ofNat 8 (fn % 256) := by
  apply BitVec.eq_of_toNat_eq
  simp [fnumLow]

theorem noteFreqWrites_eq (s : State) (c : Chan) (n : U7) (v : VoiceId) (key : Bool) :
    noteFreqWrites s c n v key =
      [(BitVec.ofNat 8 (0xA0 + v.val), BitVec.ofNat 8 (reduceFnum (s.rawFnum c n) % 256)),
        (BitVec.ofNat 8 (0xB0 + v.val),
          packKeyBlock s.cfg.blockPacking (blockOf n.toNat) (reduceFnum (s.rawFnum c n)) key)] := by
  rw [noteFreqWrites, freqWrites, fnumLow_eq]
  rfl

theorem noteFreqWrites_ordinary (s : State) (c : Chan) (n : U7) (v : VoiceId) (key : Bool) :
    ∀ w ∈ noteFreqWrites s c n v key, writable w.1 = true ∧ w.1 ≠ regBD :=
  freqWrites_ordinary _ v _ _ key

/-- R284, R285: FNUM_FN of the note, the channel's bend and TR, reduced above ten bits. -/
theorem isNoteFnum_rawFnum (s : State) (c : Chan) (n : U7) :
    isNoteFnum s c n (s.rawFnum c n) (reduceFnum (s.rawFnum c n)) := by
  refine ⟨fun h => ?_, fun entries other h => ?_, fun h => if_neg (by omega), fun h => if_pos h⟩
  · rw [State.rawFnum, h]
    rfl
  · rw [State.rawFnum, h]
    rfl

/-! ### The melodic path -/

section Melodic

variable {s : State} {c : Chan} {n : U7}

/-- A melodic note-on before its stamp: the warnings are logged and the chosen voice is bound (R241, R244). -/
def boundState (s : State) (c : Chan) (n : U7) : State :=
  rebind (findVoice s (s.channel c).instrument) (s.channel c).instrument
    (warnSteal (s.warnFreq c n) (s.channel c).instrument)

theorem warnings_eq (s : State) (c : Chan) (n k : U7) :
    warnSteal (s.warnFreq c n) k = { s with log := s.log ++ melodicWarnings s c n } := by
  rw [warnFreq_eq, warnSteal_eq, melodicWarnings, ← List.append_assoc]
  rfl

/-- Binding writes the chosen voice's instrument, the registers of `melodicBinding` and the log only. -/
theorem boundState_frame (s : State) (c : Chan) (n : U7) : boundState s c n = { s with
    v := (boundState s c n).v
    mirror := (s.writeRegs (melodicBinding s c)).mirror
    out := s.out ++ writeItems (melodicBinding s c)
    log := s.log ++ melodicWarnings s c n } := by
  have hmirror : ∀ ws, (({ s with log := s.log ++ melodicWarnings s c n } : State).writeRegs ws).mirror =
      (s.writeRegs ws).mirror := fun ws =>
    PortHistory.OnlyWritesAndLogs.writeRegs_mirror_congr (s := s)
      (t := { s with log := s.log ++ melodicWarnings s c n }) rfl ws
  conv_lhs => rw [boundState, warnings_eq, rebind_frame, hmirror]
  rw [boundState, warnings_eq]
  rfl

/-- The fields a note-on may write before its stamp, whatever their values. -/
theorem boundState_fields (s : State) (c : Chan) (n : U7) : boundState s c n = { s with
    v := (boundState s c n).v
    mirror := (boundState s c n).mirror
    out := (boundState s c n).out
    log := (boundState s c n).log } := by
  conv_lhs => rw [boundState_frame]
  rw [boundState_frame]

theorem boundState_voice (s : State) (c : Chan) (n : U7) (j : VoiceId) :
    (boundState s c n).voice j =
      if j = findVoice s (s.channel c).instrument then
        { s.voice j with instrument := some (s.channel c).instrument }
      else s.voice j := by
  rw [boundState, rebind_voice]
  split_ifs with hj
  · rw [hj, warnSteal_voice, State.warnFreq_voice]
  · rw [warnSteal_voice, State.warnFreq_voice]

theorem boundState_emits (s : State) (c : Chan) (n : U7) : Emits s (boundState s c n) (melodicBinding s c) :=
  ⟨by rw [boundState_frame], by rw [boundState_frame]⟩

/-- A melodic note-on that gets its stamp. -/
def melodicStamped (s : State) (c : Chan) (n : U7) : State :=
  ((boundState s c n).stamp (findVoice s (s.channel c).instrument) n c).writeRegs
    (noteFreqWrites s c n (findVoice s (s.channel c).instrument) true)

/-- R241, R255: the two ends of a melodic note-on. -/
theorem noteOn_melodic (hpath : ¬ isPercussion s c) (vel : U7) :
    noteOn c n vel s =
      if s.nc = s.ncMax then (boundState s c n).raiseFault .noteCounterOverflow else melodicStamped s c n := by
  have hfind : findVoice (s.warnFreq c n) (s.channel c).instrument = findVoice s (s.channel c).instrument :=
    findVoice_congr (State.warnFreq_v s c n) (State.warnFreq_rhy s c n) _
  have hnc : (boundState s c n).nc = s.nc := by rw [boundState_frame]
  have hmax : (boundState s c n).ncMax = s.ncMax := by rw [boundState_frame]; rfl
  unfold noteOn melNoteOn
  rw [(percDrum_eq_none s c).mpr hpath]
  dsimp only
  rw [State.warnFreq_channel, hfind, State.warnFreq_cfg]
  change (if (boundState s c n).nc = (boundState s c n).ncMax then _ else _) = _
  rw [hnc, hmax]
  rfl

theorem melodicStamped_frame (s : State) (c : Chan) (n : U7) : melodicStamped s c n = { s with
    nc := s.nc + 1
    v := (melodicStamped s c n).v
    mirror := (melodicStamped s c n).mirror
    out := (melodicStamped s c n).out
    log := s.log ++ melodicWarnings s c n } := by
  apply State.ext_fields <;> simp only [melodicStamped, State.writeRegs_cfg, State.writeRegs_run,
    State.writeRegs_ptr, State.writeRegs_rs, State.writeRegs_rhy, State.writeRegs_tr, State.writeRegs_nc,
    State.writeRegs_ch, State.writeRegs_log, State.stamp_cfg, State.stamp_run, State.stamp_ptr, State.stamp_rs,
    State.stamp_rhy, State.stamp_tr, State.stamp_nc, State.stamp_ch, State.stamp_log] <;> rw [boundState_frame]

theorem melodicStamped_emits (s : State) (c : Chan) (n : U7) : Emits s (melodicStamped s c n)
    (melodicBinding s c ++ noteFreqWrites s c n (findVoice s (s.channel c).instrument) true) :=
  (boundState_emits s c n).then_writeRegs (State.stamp_mirror ..) (State.stamp_out ..)

theorem melodicStamped_voice_same (s : State) (c : Chan) (n : U7) :
    (melodicStamped s c n).voice (findVoice s (s.channel c).instrument) =
      ⟨s.nc + 1, some n, some c, some (s.channel c).instrument⟩ := by
  have hnc : (boundState s c n).nc = s.nc := by rw [boundState_frame]
  rw [melodicStamped, State.writeRegs_voice, State.voice_stamp, if_pos rfl, boundState_voice, if_pos rfl, hnc]

theorem melodicStamped_voice_of_ne {j : VoiceId} (hj : j ≠ findVoice s (s.channel c).instrument) :
    (melodicStamped s c n).voice j = s.voice j := by
  rw [melodicStamped, State.writeRegs_voice, State.voice_stamp, if_neg hj, boundState_voice, if_neg hj]

/-- R242, R243: PolyphonyOverflow is logged exactly where every melodic voice sounds. -/
theorem any_isFree_iff (s : State) :
    (melodicVoices s.rhy).any s.isFree = true ↔ ∃ i, isMelodicVoice s i ∧ (s.voice i).noteStart = 0 := by
  simp [mem_melodicVoices, isMelodicVoice, State.isFree]

/-- NOTE_ON on the melodic path, below the greatest counter. -/
theorem exec_noteOn_stamped (hpath : ¬ isPercussion s c) {vel : U7} (hvel : vel ≠ 0) (hnc : s.nc ≠ s.ncMax) :
    exec (.noteOn c n vel) s = .next (melodicStamped s c n) := by
  rw [exec_noteOn, if_neg hvel, noteOn_melodic hpath, if_neg hnc]

theorem exec_noteOn_fault (hpath : ¬ isPercussion s c) {vel : U7} (hvel : vel ≠ 0) (hnc : s.nc = s.ncMax) :
    exec (.noteOn c n vel) s = .next ((boundState s c n).raiseFault .noteCounterOverflow) := by
  rw [exec_noteOn, if_neg hvel, noteOn_melodic hpath, if_pos hnc]

/-- Settles O39: the stamped state, its warnings split into the two codes. -/
theorem melodicNoteOnResult : Obligations.MelodicNoteOnResult := by
  intro c n vel s hvel hpath hnc hwf
  set k := (s.channel c).instrument with hk
  set v := findVoice s k with hv
  have hexec := exec_noteOn_stamped hpath hvel hnc (n := n)
  have hemits := melodicStamped_emits s c n
  rw [noteFreqWrites_eq] at hemits
  refine ⟨melodicStamped s c n, k, v, _, melodicBinding s c, s.rawFnum c n, reduceFnum (s.rawFnum c n),
    if 1023 < s.rawFnum c n then [.freqOverflow] else [],
    if (melodicVoices s.rhy).any s.isFree then [] else [.polyphonyOverflow],
    hexec, rfl, rfl, rfl, rfl, isNoteFnum_rawFnum s c n, rfl, fun h => if_pos h, fun h => if_neg h, rfl,
    ?length, melodicStamped_voice_same s c n, fun _ => melodicStamped_voice_of_ne, ?counter, hemits.out,
    ?log, rfl, fun h => if_neg (by omega), fun h => if_pos h, ?noSteal, ?steal, hemits.mirrorAt_written hwf,
    hemits.mirrorAt_other hwf, ?frame⟩
  case length =>
    by_cases hbound : (s.voice v).instrument = some k
    · left
      rw [show melodicBinding s c = [] from if_pos hbound]
      rfl
    · right
      rw [show melodicBinding s c = bindWrites v (s.bankAt k) from if_neg hbound]
      rfl
  case counter => rw [melodicStamped_frame]
  case log =>
    rw [melodicStamped_frame]
    rfl
  case noSteal => exact fun h => if_pos ((any_isFree_iff s).mpr h)
  case steal =>
    exact fun h => if_neg fun hany => by
      obtain ⟨i, hmel, hfree⟩ := (any_isFree_iff s).mp hany
      exact h i hmel hfree
  case frame =>
    conv_lhs => rw [melodicStamped_frame]
    rw [melodicStamped_frame]

end Melodic

/-! ### The percussion path -/

section Percussion

variable {s : State} {d : Drum} {c : Chan} {n vel : U7}

/-- The bass drum's level beside the key-scale bits its carrier was just bound with; no write for the other drums
(R252). -/
def levelWrites (d : Drum) (i : Instrument) (vel : U7) : List (Byte × Byte) :=
  if d = .bass then [(0x53, (i.car.b40 &&& 0xC0) ||| BitVec.ofNat 8 (percLevel vel.toNat))] else []

/-- The writes of 0xBD that key a drum off and on again, where it holds `m` (R251). -/
def retriggerWrites (d : Drum) (m : Byte) : List (Byte × Byte) := [(0xBD, m &&& ~~~d.bit), (0xBD, m ||| d.bit)]

theorem percussionWrites_eq (s : State) (d : Drum) (c : Chan) (n vel : U7) : percussionWrites s d c n vel =
    percBindWrites s.cfg.percSource d (s.bankAt (s.channel c).instrument) ++
      levelWrites d (s.bankAt (s.channel c).instrument) vel ++ retriggerWrites d (s.mirrorAt 0xBD) ++
      noteFreqWrites s c n d.voice false := rfl

/-! A voice's record is not read by register writes, so the order of the two does not matter. -/

theorem writeRegs_setVoiceInstrument (s : State) (v : VoiceId) (x : Option U7) (ws : List (Byte × Byte)) :
    (s.setVoiceInstrument v x).writeRegs ws = (s.writeRegs ws).setVoiceInstrument v x := by
  induction ws generalizing s with
  | nil => rfl
  | cons w ws ih => exact ih (s.writeReg w.1 w.2)

theorem writeLevel_bindPerc (hwf : Memory.wf s.mirror) (d : Drum) (k vel : U7) :
    writeLevel d vel (bindPerc d k s) =
      (s.writeRegs
        (percBindWrites s.cfg.percSource d (s.bankAt k) ++ levelWrites d (s.bankAt k) vel)).setVoiceInstrument
          d.voice none := by
  cases d
  case bass =>
    have hbound : (s.writeRegs (bindWrites 6 (s.bankAt k))).mirrorAt reg53 = (s.bankAt k).car.b40 := by
      rw [State.mirrorAt_writeRegs hwf]
      rfl
    rw [State.writeRegs_append, ← writeRegs_setVoiceInstrument]
    change (bindPerc .bass k s).writeReg reg53
      (levelValue ((s.writeRegs (bindWrites 6 (s.bankAt k))).mirrorAt reg53) _) = _
    rw [hbound]
    rfl
  all_goals
    rw [levelWrites, if_neg nofun, List.append_nil]
    rfl

theorem setBits_clearBits (m bits : Byte) : setBits (clearBits m bits) bits = m ||| bits := by
  ext k hk
  simp only [setBits, clearBits, BitVec.getElem_or, BitVec.getElem_and, BitVec.getElem_not]
  cases m[k] <;> cases bits[k] <;> rfl

theorem clearBits_or (m bits : Byte) : clearBits (m ||| bits) bits = m &&& ~~~bits := by
  ext k hk
  simp only [clearBits, BitVec.getElem_or, BitVec.getElem_and, BitVec.getElem_not]
  cases m[k] <;> cases bits[k] <;> rfl

theorem setDrum_clearDrum (hwf : Memory.wf s.mirror) (d : Drum) :
    setDrum d (clearDrum d s) = s.writeRegs (retriggerWrites d (s.mirrorAt regBD)) := by
  have hcleared : (clearDrum d s).mirrorAt regBD = clearBits (s.mirrorAt regBD) d.bit :=
    mirrorAt_writeReg_same hwf regBD _
  rw [setDrum, hcleared, setBits_clearBits]
  rfl

theorem levelWrites_ordinary (d : Drum) (i : Instrument) (vel : U7) :
    ∀ w ∈ levelWrites d i vel, writable w.1 = true ∧ w.1 ≠ regBD := by
  intro w hw
  unfold levelWrites at hw
  split_ifs at hw
  · rw [List.mem_singleton.mp hw]
    exact reg53_ordinary
  · cases hw

/-- A percussion note-on before its stamp: the warning is logged, all its writes are made, and the drum's voice holds
no whole instrument (R251). -/
def retriggeredState (s : State) (d : Drum) (c : Chan) (n vel : U7) : State :=
  ((s.warnFreq c n).writeRegs (percussionWrites s d c n vel)).setVoiceInstrument d.voice none

/-- What 0xBD holds when a drum has been bound is what it held before (R253, R252). -/
theorem bindPerc_writeLevel_regBD (hwf : Memory.wf s.mirror) (d : Drum) (i : Instrument) (vel : U7) :
    (s.writeRegs (percBindWrites s.cfg.percSource d i ++ levelWrites d i vel)).mirrorAt regBD =
      s.mirrorAt regBD := by
  refine State.mirrorAt_writeRegs_other hwf _ _ fun w hw => ?_
  rcases List.mem_append.mp hw with hw | hw
  · exact (percBindWrites_ordinary _ _ _ w hw).2
  · exact (levelWrites_ordinary _ _ _ w hw).2

theorem percNoteOn_writes (hwf : Memory.wf s.mirror) (d : Drum) (c : Chan) (n vel : U7) :
    (setDrum d (clearDrum d (writeLevel d vel (bindPerc d (s.channel c).instrument (s.warnFreq c n))))).writeRegs
      (noteFreqWrites s c n d.voice false) = retriggeredState s d c n vel := by
  have hwf' : Memory.wf (s.warnFreq c n).mirror := by rwa [State.warnFreq_mirror]
  rw [writeLevel_bindPerc hwf', setDrum_clearDrum (s := State.setVoiceInstrument _ _ _) (State.writeRegs_wf hwf' _),
    State.setVoiceInstrument_mirrorAt, bindPerc_writeLevel_regBD hwf', writeRegs_setVoiceInstrument, writeRegs_setVoiceInstrument,
    ← State.writeRegs_append, ← State.writeRegs_append, State.warnFreq_cfg, State.warnFreq_bankAt,
    State.warnFreq_mirrorAt, retriggeredState, percussionWrites_eq,
    List.append_assoc (_ ++ _)]
  rfl

theorem retriggeredState_frame (s : State) (d : Drum) (c : Chan) (n vel : U7) : retriggeredState s d c n vel = { s with
    v := (retriggeredState s d c n vel).v
    mirror := (s.writeRegs (percussionWrites s d c n vel)).mirror
    out := s.out ++ writeItems (percussionWrites s d c n vel)
    log := s.log ++ percussionWarnings s c n } := by
  have hmirror : ((s.warnFreq c n).writeRegs (percussionWrites s d c n vel)).mirror =
      (s.writeRegs (percussionWrites s d c n vel)).mirror :=
    PortHistory.OnlyWritesAndLogs.writeRegs_mirror_congr (State.warnFreq_mirror s c n) _
  have hlog : (s.warnFreq c n).log = s.log ++ percussionWarnings s c n := by
    rw [warnFreq_eq]
    rfl
  apply State.ext_fields <;> simp [retriggeredState, hmirror, hlog, writeItems]

theorem retriggeredState_emits (s : State) (d : Drum) (c : Chan) (n vel : U7) :
    Emits s (retriggeredState s d c n vel) (percussionWrites s d c n vel) :=
  ⟨by rw [retriggeredState_frame], by rw [retriggeredState_frame]⟩

theorem retriggeredState_fields (s : State) (d : Drum) (c : Chan) (n vel : U7) :
    retriggeredState s d c n vel = { s with
      v := (retriggeredState s d c n vel).v
      mirror := (retriggeredState s d c n vel).mirror
      out := (retriggeredState s d c n vel).out
      log := (retriggeredState s d c n vel).log } := by
  conv_lhs => rw [retriggeredState_frame]
  rw [retriggeredState_frame]

theorem retriggeredState_voice (s : State) (d : Drum) (c : Chan) (n vel : U7) (j : VoiceId) :
    (retriggeredState s d c n vel).voice j =
      if j = d.voice then { s.voice j with instrument := none } else s.voice j := by
  rw [retriggeredState, State.voice_setVoiceInstrument]
  split_ifs with hj
  · rw [hj, State.writeRegs_voice, State.warnFreq_voice]
  · rw [State.writeRegs_voice, State.warnFreq_voice]

/-- A percussion note-on that gets its stamp. -/
def percussionStamped (s : State) (d : Drum) (c : Chan) (n vel : U7) : State :=
  (retriggeredState s d c n vel).stamp d.voice n c

theorem percussionStamped_emits (s : State) (d : Drum) (c : Chan) (n vel : U7) :
    Emits s (percussionStamped s d c n vel) (percussionWrites s d c n vel) :=
  (retriggeredState_emits s d c n vel).of_same_ports (State.stamp_mirror ..) (State.stamp_out ..)

theorem percussionStamped_frame (s : State) (d : Drum) (c : Chan) (n vel : U7) :
    percussionStamped s d c n vel = { s with
    nc := s.nc + 1
    v := (percussionStamped s d c n vel).v
    mirror := (percussionStamped s d c n vel).mirror
    out := (percussionStamped s d c n vel).out
    log := s.log ++ percussionWarnings s c n } := by
  apply State.ext_fields <;> simp only [percussionStamped, State.stamp_cfg, State.stamp_run, State.stamp_ptr,
    State.stamp_rs, State.stamp_rhy, State.stamp_tr, State.stamp_nc, State.stamp_ch, State.stamp_log] <;>
    rw [retriggeredState_frame]

/-- R251, R255: the two ends of a percussion note-on. -/
theorem noteOn_percussion (hwf : Memory.wf s.mirror) (hrhy : s.rhy = true) (hd : drumOfChannel c = some d) (vel : U7) :
    noteOn c n vel s =
      if s.nc = s.ncMax then (retriggeredState s d c n vel).raiseFault .noteCounterOverflow
      else percussionStamped s d c n vel := by
  have hnc : (retriggeredState s d c n vel).nc = s.nc := by rw [retriggeredState_frame]
  have hmax : (retriggeredState s d c n vel).ncMax = s.ncMax := by rw [retriggeredState_frame]; rfl
  unfold noteOn percNoteOn
  rw [percDrum, if_pos hrhy, hd]
  dsimp only
  rw [State.warnFreq_channel, State.warnFreq_cfg, ← noteFreqWrites, percNoteOn_writes hwf, hnc, hmax]
  rfl

/-- NOTE_ON on the percussion path, below the greatest counter. -/
theorem exec_noteOn_drum (hwf : Memory.wf s.mirror) (hrhy : s.rhy = true) (hd : drumOfChannel c = some d)
    (hvel : vel ≠ 0) (hnc : s.nc ≠ s.ncMax) :
    exec (.noteOn c n vel) s = .next (percussionStamped s d c n vel) := by
  rw [exec_noteOn, if_neg hvel, noteOn_percussion hwf hrhy hd, if_neg hnc]

theorem exec_noteOn_drum_fault (hwf : Memory.wf s.mirror) (hrhy : s.rhy = true) (hd : drumOfChannel c = some d)
    (hvel : vel ≠ 0) (hnc : s.nc = s.ncMax) :
    exec (.noteOn c n vel) s = .next ((retriggeredState s d c n vel).raiseFault .noteCounterOverflow) := by
  rw [exec_noteOn, if_neg hvel, noteOn_percussion hwf hrhy hd, if_pos hnc]

theorem percussionStamped_voice_same (s : State) (d : Drum) (c : Chan) (n vel : U7) :
    (percussionStamped s d c n vel).voice d.voice = ⟨s.nc + 1, some n, some c, none⟩ := by
  have hnc : (retriggeredState s d c n vel).nc = s.nc := by rw [retriggeredState_frame]
  rw [percussionStamped, State.voice_stamp, if_pos rfl, retriggeredState_voice, if_pos rfl, hnc]

theorem percussionStamped_voice_of_ne {j : VoiceId} (hj : j ≠ d.voice) :
    (percussionStamped s d c n vel).voice j = s.voice j := by
  rw [percussionStamped, State.voice_stamp, if_neg hj, retriggeredState_voice, if_neg hj]

/-- R251: after all the writes 0xBD has the drum's bit set. -/
theorem percussionStamped_regBD (hwf : Memory.wf s.mirror) :
    (percussionStamped s d c n vel).mirrorAt 0xBD = s.mirrorAt 0xBD ||| d.bit := by
  have hwf' := State.writeRegs_wf hwf (percBindWrites s.cfg.percSource d (s.bankAt (s.channel c).instrument) ++
    levelWrites d (s.bankAt (s.channel c).instrument) vel)
  rw [(percussionStamped_emits s d c n vel).mirrorAt, percussionWrites_eq, State.writeRegs_append,
    State.writeRegs_append,
    State.mirrorAt_writeRegs_other (State.writeRegs_wf hwf' _) _ 0xBD fun w hw =>
      (noteFreqWrites_ordinary s c n d.voice false w hw).2,
    State.mirrorAt_writeRegs hwf']
  rfl

/-- R284: the one warning of the percussion path. -/
theorem percussionWarnings_of_le (h : s.rawFnum c n ≤ 1023) : percussionWarnings s c n = [] := if_neg (by omega)

theorem percussionWarnings_of_lt (h : 1023 < s.rawFnum c n) : percussionWarnings s c n = [.freqOverflow] := if_pos h

/-- Settles O41: the stamped state, and the binding writes of each drum at its operator's registers. -/
theorem percussionNoteOnResult : Obligations.PercussionNoteOnResult := by
  intro c n vel s d hvel hrhy hd hnc hwf
  set i := s.bankAt (s.channel c).instrument with hi
  have hemits := percussionStamped_emits s d c n vel
  have hlog : (percussionStamped s d c n vel).log = s.log ++ percussionWarnings s c n := by
    rw [percussionStamped_frame]
  refine ⟨percussionStamped s d c n vel, percussionWrites s d c n vel, i, s.rawFnum c n,
    reduceFnum (s.rawFnum c n), drumSource s.cfg.percSource i true,
    percBindWrites s.cfg.percSource d i ++ levelWrites d i vel, _, exec_noteOn_drum hwf hrhy hd hvel hnc, rfl, rfl,
    rfl, rfl, isNoteFnum_rawFnum s c n, fun h => by rw [h]; rfl, fun h => by rw [h]; rfl, rfl, ?bass, ?snare, ?tom,
    ?cymbal, ?hihat, ?writes, ?length, percussionStamped_voice_same s d c n vel,
    fun _ => percussionStamped_voice_of_ne, ?counter, hemits.out, hlog, ?noOverflow, ?overflow,
    percussionStamped_regBD hwf, hemits.mirrorAt_written hwf, hemits.mirrorAt_other hwf, ?frame⟩
  case bass => rintro rfl; rfl
  case snare => rintro rfl; rfl
  case tom => rintro rfl; cases s.cfg.percSource <;> rfl
  case cymbal => rintro rfl; rfl
  case hihat => rintro rfl; cases s.cfg.percSource <;> rfl
  case writes =>
    rw [percussionWrites_eq, noteFreqWrites_eq, List.append_assoc (_ ++ _)]
    rfl
  case length => cases d <;> rfl
  case counter => rw [percussionStamped_frame]
  case noOverflow =>
    intro h
    rw [hlog, percussionWarnings_of_le h, List.append_nil]
  case overflow =>
    intro h
    rw [hlog, percussionWarnings_of_lt h]
  case frame =>
    conv_lhs => rw [percussionStamped_frame]
    rw [percussionStamped_frame]

end Percussion

/-! ### The greatest counter -/

section Overflow

variable {s : State} {c : Chan}

/-- R240: a note-on takes the percussion path where rhythm mode is on and its channel is a drum's. -/
theorem isPercussion_iff : isPercussion s c ↔ s.rhy = true ∧ ∃ d, drumOfChannel c = some d := by
  rw [← Option.isSome_iff_exists, drumTable.1 c, decide_eq_true_iff]
  rfl

/-- R255: what either path has done when the counter faults. `u` is the state before the stamp, in which the voice
`v` has a new instrument field. -/
theorem counterFault_facts {s u : State} {v : VoiceId} {x : Option U7}
    (hframe : u = { s with v := u.v, mirror := u.mirror, out := u.out, log := u.log })
    (hvoice : ∀ j, u.voice j = if j = v then { s.voice j with instrument := x } else s.voice j) :
    (∀ i, ((u.raiseFault .noteCounterOverflow).voice i).noteStart = (s.voice i).noteStart ∧
      ((u.raiseFault .noteCounterOverflow).voice i).note = (s.voice i).note ∧
      ((u.raiseFault .noteCounterOverflow).voice i).channel = (s.voice i).channel) ∧
    u.raiseFault .noteCounterOverflow = { s with
      run := .faulted .noteCounterOverflow, v := u.v, mirror := u.mirror, out := u.out, log := u.log } ∧
    (u.voice v).instrument = x ∧ (∀ i, i ≠ v → u.voice i = s.voice i) ∧
    step (u.raiseFault .noteCounterOverflow) = .next (u.raiseFault .noteCounterOverflow) := by
  refine ⟨fun i => ?_, ?_, ?_, fun i hi => ?_, step_stopped nofun⟩
  · rw [State.raiseFault_voice, hvoice]
    split_ifs <;> exact ⟨rfl, rfl, rfl⟩
  · conv_lhs => rw [hframe]
    rfl
  · rw [hvoice, if_pos rfl]
  · rw [hvoice, if_neg hi]

/-- Settles O44: the state of each path before its stamp, faulted. -/
theorem noteCounterOverflowFaults : Obligations.NoteCounterOverflowFaults := by
  intro c n vel s hvel hnc hwf
  by_cases hpath : isPercussion s c
  · obtain ⟨hrhy, d, hd⟩ := isPercussion_iff.mp hpath
    have hexec := exec_noteOn_drum_fault hwf hrhy hd hvel hnc (n := n)
    have hemits : Emits s ((retriggeredState s d c n vel).raiseFault .noteCounterOverflow) _ :=
      (retriggeredState_emits s d c n vel).of_same_ports (State.raiseFault_mirror ..) (State.raiseFault_out ..)
    obtain ⟨hstamps, hframe, hinst, hothers, hsticky⟩ :=
      counterFault_facts (retriggeredState_fields s d c n vel) (retriggeredState_voice s d c n vel)
    refine ⟨_, percussionWrites s d c n vel, hexec, rfl, hstamps, hemits.out, hemits.mirrorAt_written hwf,
      hemits.mirrorAt_other hwf, hframe, fun h => absurd hpath h, fun d' _ hd' => ?_, hsticky⟩
    obtain rfl : d = d' := Option.some.inj (hd.symm.trans hd')
    exact ⟨rfl, hinst, hothers, by rw [State.raiseFault_log, retriggeredState_frame]⟩
  · have hexec := exec_noteOn_fault hpath hvel hnc (n := n)
    have hemits : Emits s ((boundState s c n).raiseFault .noteCounterOverflow) _ :=
      (boundState_emits s c n).of_same_ports (State.raiseFault_mirror ..) (State.raiseFault_out ..)
    obtain ⟨hstamps, hframe, hinst, hothers, hsticky⟩ :=
      counterFault_facts (boundState_fields s c n) (boundState_voice s c n)
    refine ⟨_, melodicBinding s c, hexec, rfl, hstamps, hemits.out, hemits.mirrorAt_written hwf,
      hemits.mirrorAt_other hwf, hframe, ?_,
      fun d hrhy hd => absurd (isPercussion_iff.mpr ⟨hrhy, d, hd⟩) hpath, hsticky⟩
    rintro _ k v rfl rfl
    exact ⟨rfl, hinst, hothers, by rw [State.raiseFault_log, boundState_frame]⟩

end Overflow

/-! ### A note-on and its note-off -/

section OnOff

variable {s t : State} {c : Chan} {n off : U7}

/-- R245: the lowest melodic voice that sounds the note is released with one write. -/
theorem exec_noteOff_lowest (hpath : ¬ isPercussion t c) {i : VoiceId}
    (hmel : isMelodicVoice t i) (hsound : isSounding t c n i) (hlow : ∀ j, j < i → ¬ isSounding t c n j) :
    ∃ u x, exec (.noteOff c n off) t = .next u ∧ u.isFree i = true ∧ u.out = t.out ++ [.write (regB0 i) x] ∧
      x.getLsbD 5 = false ∧ ∀ j, j ≠ i → u.voice j = t.voice j := by
  refine ⟨releaseVoice t i (regB0 i) keyOn, clearBits (t.mirrorAt (regB0 i)) keyOn, ?_, ?_, rfl,
    clearBits_keyOn_getLsbD_five _, fun j => voice_releaseVoice_of_ne i _ _⟩
  · rw [exec_noteOff, noteOff_melodic hpath, melNoteOff_of_lowest hmel hsound hlow]
  · rw [State.isFree, voice_releaseVoice_same]
    rfl

/-- The note-on's own voice sounds its pair. -/
theorem isSounding_melodicStamped (s : State) (c : Chan) (n : U7) :
    isSounding (melodicStamped s c n) c n (findVoice s (s.channel c).instrument) := by
  unfold isSounding
  rw [melodicStamped_voice_same]
  exact ⟨Nat.succ_ne_zero _, rfl, rfl⟩

theorem isSounding_melodicStamped_of_ne {j : VoiceId} (hj : j ≠ findVoice s (s.channel c).instrument) :
    isSounding (melodicStamped s c n) c n j ↔ isSounding s c n j := by
  unfold isSounding
  rw [melodicStamped_voice_of_ne hj]

/-- Settles O45: the note-off's scan over the voices the note-on left, and the drum's record. -/
theorem noteOnThenOffFreesTheVoice : Obligations.NoteOnThenOffFreesTheVoice := by
  intro c n vel off s hvel hnc hwf
  refine ⟨fun hpath v hv => ?melodic, fun d hrhy hd => ?percussion⟩
  case melodic =>
    have hon := exec_noteOn_stamped hpath hvel hnc (n := n)
    have hrhy : (melodicStamped s c n).rhy = s.rhy := by rw [melodicStamped_frame]
    have hpath' : ¬ isPercussion (melodicStamped s c n) c := by rwa [isPercussion, hrhy]
    have hmel : v.val < melodicCount s.rhy := hv ▸ findVoice_lt s _
    have hbelow : ∀ j, j < v → (isSounding (melodicStamped s c n) c n j ↔ isSounding s c n j) := fun j hj =>
      isSounding_melodicStamped_of_ne (hv ▸ hj.ne)
    refine ⟨fun hsilent => ?own, fun i hi hsound hlow => ?lower⟩
    case own =>
      obtain ⟨u, x, hoff, hfree, hout, hx, hothers⟩ := exec_noteOff_lowest (off := off) hpath'
        (by rwa [isMelodicVoice, hrhy]) (hv ▸ isSounding_melodicStamped s c n)
        fun j hj hs => hsilent j hj ((hbelow j hj).mp hs)
      refine ⟨_, u, x, hon, hoff, hfree, hout, hx, fun j hj => ?_⟩
      rw [hothers j hj, melodicStamped_voice_of_ne (hv ▸ hj)]
    case lower =>
      obtain ⟨u, x, hoff, hfree, hout, hx, hothers⟩ := exec_noteOff_lowest (off := off) hpath'
        (by rw [isMelodicVoice, hrhy]; exact lt_trans hi hmel) ((hbelow i hi).mpr hsound)
        fun j hj hs => hlow j hj ((hbelow j (hj.trans hi)).mp hs)
      exact ⟨_, u, x, hon, hoff, hfree, hout, hx, hothers⟩
  case percussion =>
    have hrhy' : (percussionStamped s d c n vel).rhy = true := by
      rw [percussionStamped_frame]
      exact hrhy
    have hnote : ((percussionStamped s d c n vel).voice d.voice).note = some n := by
      rw [percussionStamped_voice_same]
    refine ⟨_, releaseVoice (percussionStamped s d c n vel) d.voice regBD d.bit,
      exec_noteOn_drum hwf hrhy hd hvel hnc, ?_, ?_, ?_, fun j hj => ?_⟩
    · rw [exec_noteOff, noteOff_percussion hrhy' hd, percNoteOff_of_recorded hnote]
    · rw [State.isFree, voice_releaseVoice_same]
      rfl
    · rw [← clearBits_or, ← percussionStamped_regBD hwf (n := n) (vel := vel) (c := c)]
      rfl
    · rw [voice_releaseVoice_of_ne _ _ _ hj, percussionStamped_voice_of_ne hj]

end OnOff

/-! ### The registers of a voice -/

/-- The registers of voice `v`: frequency, key and connection, and its two operators' (20_memory R71, R72, R74). -/
def voiceRegisters (v : VoiceId) : List Byte :=
  [0xA0, 0xB0, 0xC0].map (fun base => BitVec.ofNat 8 (base + v.val)) ++
    [0x20, 0x40, 0x60, 0x80, 0xE0].flatMap fun base =>
      [opOffset v, carOffset v].map fun o => BitVec.ofNat 8 (base + o)

theorem mem_voiceRegisters {v : VoiceId} {r : Byte} : r ∈ voiceRegisters v ↔
    (∃ base ∈ [0xA0, 0xB0, 0xC0], BitVec.ofNat 8 (base + v.val) = r) ∨
      ∃ base ∈ [0x20, 0x40, 0x60, 0x80, 0xE0], ∃ o ∈ [opOffset v, carOffset v],
        BitVec.ofNat 8 (base + o) = r := by
  rw [voiceRegisters, List.mem_append, List.mem_map, List.mem_flatMap]
  simp only [List.mem_map]

/-- The voice whose register has number `a`: its low four bits from 0xA0 to 0xCF; else the inverse of OPOFF on its low
five bits, where a carrier's offset is three above its modulator's. -/
def registerVoice (a : Nat) : Nat :=
  if 0xA0 ≤ a ∧ a < 0xD0 then a % 16 else a % 32 / 8 * 3 + a % 32 % 8 % 3

theorem registerVoice_of_mem {v : VoiceId} {r : Byte} (h : r ∈ voiceRegisters v) :
    registerVoice r.toNat = v.val ∧ r.toNat ≠ 0xBD := by
  have hv := v.isLt
  unfold registerVoice
  obtain ⟨base, hbase, rfl⟩ | ⟨base, hbase, o, ho, rfl⟩ := mem_voiceRegisters.mp h
  · simp only [List.mem_cons, List.not_mem_nil, or_false] at hbase
    rw [BitVec.toNat_ofNat, Nat.mod_eq_of_lt (by omega), if_pos (by omega)]
    omega
  · simp only [List.mem_cons, List.not_mem_nil, or_false, opOffset, carOffset] at hbase ho
    rw [BitVec.toNat_ofNat, Nat.mod_eq_of_lt (by omega), if_neg (by omega)]
    omega

/-- Voices share no register, and 0xBD is no voice's. -/
theorem voiceRegisters_apart {v u : VoiceId} (hne : v ≠ u) {r : Byte} (hr : r ∈ voiceRegisters v) :
    r ∉ regBD :: voiceRegisters u := by
  obtain ⟨hv, hBD⟩ := registerVoice_of_mem hr
  intro hmem
  rcases List.mem_cons.mp hmem with rfl | hu
  · exact hBD rfl
  · exact hne (Fin.ext (hv.symm.trans (registerVoice_of_mem hu).1))

/-- Writes to the registers of voice `v`, or to 0xBD. -/
def OfVoice (v : VoiceId) (ws : List (Byte × Byte)) : Prop := ∀ w ∈ ws, w.1 ∈ regBD :: voiceRegisters v

section OfVoice

variable {v : VoiceId} {ws ws' : List (Byte × Byte)}

theorem OfVoice.append (h : OfVoice v ws) (h' : OfVoice v ws') : OfVoice v (ws ++ ws') :=
  List.forall_mem_append.mpr ⟨h, h'⟩

theorem OfVoice.nil (v : VoiceId) : OfVoice v [] := nofun

theorem ofVoice_singleton {r x : Byte} (h : r ∈ voiceRegisters v) : OfVoice v [(r, x)] :=
  List.forall_mem_singleton.mpr (List.mem_cons_of_mem _ h)

theorem ofVoice_cons {w : Byte × Byte} (hw : w.1 ∈ voiceRegisters v) (h : OfVoice v ws) : OfVoice v (w :: ws) :=
  List.forall_mem_cons.mpr ⟨List.mem_cons_of_mem _ hw, h⟩

theorem frequencyRegister_mem (v : VoiceId) {base : Nat} (hbase : base ∈ [0xA0, 0xB0, 0xC0]) :
    BitVec.ofNat 8 (base + v.val) ∈ voiceRegisters v :=
  mem_voiceRegisters.mpr (.inl ⟨base, hbase, rfl⟩)

theorem operatorRegister_mem {v : VoiceId} {base o : Nat} (hbase : base ∈ [0x20, 0x40, 0x60, 0x80, 0xE0])
    (ho : o ∈ [opOffset v, carOffset v]) : BitVec.ofNat 8 (base + o) ∈ voiceRegisters v :=
  mem_voiceRegisters.mpr (.inr ⟨base, hbase, o, ho, rfl⟩)

/-- An operator's registers are its voice's, in either role. -/
theorem ofVoice_operatorWrites {v : VoiceId} {o : Nat} (ho : o ∈ [opOffset v, carOffset v]) (op : Operator) :
    OfVoice v (operatorWrites o op) :=
  ofVoice_cons (operatorRegister_mem (by simp) ho) (ofVoice_cons (operatorRegister_mem (by simp) ho)
    (ofVoice_cons (operatorRegister_mem (by simp) ho) (ofVoice_cons (operatorRegister_mem (by simp) ho)
      (ofVoice_singleton (operatorRegister_mem (by simp) ho)))))

theorem ofVoice_modulatorWrites (v : VoiceId) (op : Operator) : OfVoice v (operatorWrites (opOffset v) op) :=
  ofVoice_operatorWrites (by simp) op

theorem ofVoice_carrierWrites (v : VoiceId) (op : Operator) : OfVoice v (operatorWrites (carOffset v) op) :=
  ofVoice_operatorWrites (by simp) op

theorem ofVoice_bindWrites (v : VoiceId) (i : Instrument) : OfVoice v (bindWrites v i) :=
  ((ofVoice_modulatorWrites v i.mod).append (ofVoice_carrierWrites v i.car)).append
    (ofVoice_singleton (frequencyRegister_mem v (by simp)))

theorem ofVoice_noteFreqWrites (s : State) (c : Chan) (n : U7) (v : VoiceId) (key : Bool) :
    OfVoice v (noteFreqWrites s c n v key) :=
  ofVoice_cons (frequencyRegister_mem v (by simp)) (ofVoice_singleton (frequencyRegister_mem v (by simp)))

theorem ofVoice_percBindWrites (p : PercSource) (d : Drum) (i : Instrument) :
    OfVoice d.voice (percBindWrites p d i) := by
  cases d
  case bass => exact ofVoice_bindWrites 6 i
  case snare => exact ofVoice_carrierWrites 7 _
  case tom => exact ofVoice_modulatorWrites 8 _
  case cymbal => exact ofVoice_carrierWrites 8 _
  case hihat => exact ofVoice_modulatorWrites 7 _

theorem ofVoice_levelWrites (d : Drum) (i : Instrument) (vel : U7) : OfVoice d.voice (levelWrites d i vel) := by
  unfold levelWrites
  split_ifs with hd
  · subst hd
    exact ofVoice_singleton (operatorRegister_mem (v := 6) (base := 0x40) (o := carOffset 6) (by simp) (by simp))
  · exact .nil _

theorem ofVoice_retriggerWrites (d : Drum) (m : Byte) (v : VoiceId) : OfVoice v (retriggerWrites d m) := by
  intro w hw
  simp only [retriggerWrites, List.mem_cons, List.not_mem_nil, or_false] at hw
  rcases hw with rfl | rfl <;> exact List.mem_cons_self

theorem ofVoice_percussionWrites (s : State) (d : Drum) (c : Chan) (n vel : U7) :
    OfVoice d.voice (percussionWrites s d c n vel) :=
  (((ofVoice_percBindWrites _ d _).append (ofVoice_levelWrites d _ vel)).append
    (ofVoice_retriggerWrites d _ _)).append (ofVoice_noteFreqWrites s c n d.voice false)

theorem ofVoice_melodicBinding (s : State) (c : Chan) :
    OfVoice (findVoice s (s.channel c).instrument) (melodicBinding s c) := by
  unfold melodicBinding
  dsimp only
  split_ifs
  · exact .nil _
  · exact ofVoice_bindWrites _ _

end OfVoice

/-- `t` comes from `s` by changes of voice `v`'s record and writes to its registers and 0xBD. -/
structure TouchesVoice (v : VoiceId) (s t : State) : Prop where
  others : ∀ j, j ≠ v → t.voice j = s.voice j
  writes : ∃ ws, Emits s t ws ∧ OfVoice v ws

section Separation

variable {s t : State} {c : Chan} {n vel : U7}

theorem touchesVoice_noteOn_melodic (hpath : ¬ isPercussion s c) :
    TouchesVoice (findVoice s (s.channel c).instrument) s (noteOn c n vel s) := by
  rw [noteOn_melodic hpath]
  split_ifs
  · exact ⟨fun j hj => by rw [State.raiseFault_voice, boundState_voice, if_neg hj],
      _, (boundState_emits s c n).of_same_ports (State.raiseFault_mirror ..) (State.raiseFault_out ..),
      ofVoice_melodicBinding s c⟩
  · exact ⟨fun _ => melodicStamped_voice_of_ne, _, melodicStamped_emits s c n,
      (ofVoice_melodicBinding s c).append (ofVoice_noteFreqWrites s c n _ true)⟩

theorem touchesVoice_noteOn_percussion {d : Drum} (hwf : Memory.wf s.mirror) (hrhy : s.rhy = true)
    (hd : drumOfChannel c = some d) : TouchesVoice d.voice s (noteOn c n vel s) := by
  rw [noteOn_percussion hwf hrhy hd]
  split_ifs
  · exact ⟨fun j hj => by rw [State.raiseFault_voice, retriggeredState_voice, if_neg hj], _,
      (retriggeredState_emits s d c n vel).of_same_ports (State.raiseFault_mirror ..) (State.raiseFault_out ..),
      ofVoice_percussionWrites s d c n vel⟩
  · exact ⟨fun _ => percussionStamped_voice_of_ne, _, percussionStamped_emits s d c n vel,
      ofVoice_percussionWrites s d c n vel⟩

theorem touchesVoice_of_unchanged (v : VoiceId) (hv : ∀ j, t.voice j = s.voice j) (hm : t.mirror = s.mirror)
    (ho : t.out = s.out) : TouchesVoice v s t :=
  ⟨fun j _ => hv j, [], ⟨hm, by simp [ho, writeItems]⟩, .nil v⟩

theorem touchesVoice_releaseVoice (s : State) (v : VoiceId) (r bits : Byte) (hr : r ∈ regBD :: voiceRegisters v) :
    TouchesVoice v s (releaseVoice s v r bits) :=
  ⟨fun _ => voice_releaseVoice_of_ne v r bits, [(r, clearBits (s.mirrorAt r) bits)], ⟨rfl, rfl⟩,
    List.forall_mem_singleton.mpr hr⟩

/-- A melodic note-off touches a melodic voice. -/
theorem touchesVoice_noteOff_melodic (hpath : ¬ isPercussion s c) :
    ∃ v, isMelodicVoice s v ∧ TouchesVoice v s (noteOff c n s) := by
  rw [noteOff_melodic hpath, melNoteOff]
  split
  · next i hi =>
    have hreg : regB0 i ∈ voiceRegisters i := frequencyRegister_mem i (by simp)
    exact ⟨i, ((find_sounding s c n i).mp hi).1, touchesVoice_releaseVoice s i _ _ (List.mem_cons_of_mem _ hreg)⟩
  · exact ⟨0, zero_isMelodicVoice s, touchesVoice_of_unchanged 0 (fun _ => rfl) rfl rfl⟩

theorem touchesVoice_noteOff_percussion {d : Drum} (hrhy : s.rhy = true) (hd : drumOfChannel c = some d) :
    TouchesVoice d.voice s (noteOff c n s) := by
  rw [noteOff_percussion hrhy hd]
  by_cases hnote : (s.voice d.voice).note = some n
  · rw [percNoteOff_of_recorded hnote]
    exact touchesVoice_releaseVoice s _ _ _ List.mem_cons_self
  · rw [percNoteOff_of_stale hnote]
    exact touchesVoice_of_unchanged _ (fun _ => rfl) rfl rfl

/-- R240: a note message touches one voice, a melodic one or, on a drum's channel in rhythm mode, the drum's. -/
theorem exec_touchesVoice (hwf : Memory.wf s.mirror)
    (h : exec (.noteOn c n vel) s = .next t ∨ exec (.noteOff c n vel) s = .next t) :
    (¬ isPercussion s c → ∃ v, isMelodicVoice s v ∧ TouchesVoice v s t) ∧
    (∀ d, s.rhy = true → drumOfChannel c = some d → TouchesVoice d.voice s t) := by
  have ht : t = noteOff c n s ∨ t = noteOn c n vel s := by
    rcases h with h | h
    · rw [exec_noteOn] at h
      split_ifs at h <;> cases h
      · exact .inl rfl
      · exact .inr rfl
    · cases h
      exact .inl rfl
  rcases ht with rfl | rfl
  · exact ⟨touchesVoice_noteOff_melodic, fun d hrhy hd => touchesVoice_noteOff_percussion hrhy hd⟩
  · exact ⟨fun hpath => ⟨_, findVoice_lt s _, touchesVoice_noteOn_melodic hpath⟩,
      fun d hrhy hd => touchesVoice_noteOn_percussion hwf hrhy hd⟩

/-- The record and the registers of every other voice stay as they were. -/
theorem TouchesVoice.keeps_other {v u : VoiceId} (h : TouchesVoice v s t) (hwf : Memory.wf s.mirror) (hu : u ≠ v) :
    t.voice u = s.voice u ∧ ∀ r ∈ voiceRegisters u, t.mirrorAt r = s.mirrorAt r := by
  obtain ⟨ws, hemits, hws⟩ := h.writes
  refine ⟨h.others u hu, fun r hr => hemits.mirrorAt_other hwf r fun w hw he => ?_⟩
  exact voiceRegisters_apart hu hr (he ▸ hws w hw)

theorem drum_voice_ge (d : Drum) : 6 ≤ d.voice.val := by
  cases d <;> decide

/-- Settles O46: in rhythm mode the touched voice lies on the other side of voice 6. -/
theorem rhythmModeSeparatesVoices : Obligations.RhythmModeSeparatesVoices := by
  intro c n vel s t hrhy hwf h u hu
  obtain ⟨hmelodic, hpercussion⟩ := exec_touchesVoice hwf h
  have htouches : ∃ v, u ≠ v ∧ TouchesVoice v s t := by
    rcases hu with ⟨hc, hu⟩ | ⟨hc, hu⟩
    · obtain ⟨v, hv, ht⟩ := hmelodic fun hpath => absurd hpath.2 (by omega)
      rw [isMelodicVoice, hrhy] at hv
      exact ⟨v, fun e => absurd (e ▸ hu) (not_le.mpr hv), ht⟩
    · obtain ⟨-, d, hd⟩ := isPercussion_iff.mp ⟨hrhy, hc⟩
      exact ⟨d.voice, fun e => absurd (e ▸ drum_voice_ge d) (not_le.mpr hu), hpercussion d hrhy hd⟩
  obtain ⟨v, hne, ht⟩ := htouches
  obtain ⟨hvoice, hregs⟩ := ht.keeps_other hwf hne
  refine ⟨hvoice, fun base hbase => hregs _ ?_, fun base hbase o ho => hregs _ ?_⟩
  · exact frequencyRegister_mem u hbase
  · exact operatorRegister_mem hbase ho

end Separation

end Sys2Proof.Proofs.NoteOn

/-! PROOFS. The register packing and the F-number of 46_frequency (R281, R282, R284), over the reals and in range, and
the integer root of 00_scope R11. -/

namespace Sys2Proof.Proofs.FrequencyFormula

open Sys2Proof Sys2Proof.Machine Sys2Proof.Proofs.Frequency Sys2Proof.Proofs.PercLevel

/-! ### Register packing -/

/-- R281: of the F-number the packed byte reads bits 9:8 only, one of four values. -/
theorem packKeyBlock_eq (p : BlockPacking) (blk fn : Nat) (key : Bool) :
    packKeyBlock p blk fn key =
      BitVec.ofNat 8 ((if key then 0x20 else 0) ||| packedBlock p blk <<< 2 ||| fn / 256 % 4) := by
  rw [packKeyBlock, Nat.shiftRight_eq_div_pow, show 3 = 2 ^ 2 - 1 from rfl, Nat.and_two_pow_sub_one_eq_mod]

/-- The fields of a packed byte, for each block below 8 and bits 9:8 of the F-number. -/
theorem packed_fields : ∀ blk < 8, ∀ high < 4, ∀ key : Bool,
    let byte := BitVec.ofNat 8 ((if key then 0x20 else 0) ||| blk <<< 2 ||| high)
    byte.getLsbD 5 = key ∧ byte.toNat / 4 % 8 = blk ∧ byte.toNat % 4 = high ∧ byte.toNat / 64 = 0 := by
  decide

/-- Blocks 8 and 9 under both packings, by bits 9:8 of the F-number. -/
theorem packed_high_blocks : ∀ blk < 10, 8 ≤ blk → ∀ high < 4,
    (BitVec.ofNat 8 (0 ||| blk <<< 2 ||| high)).toNat = 0x20 + 4 * (blk - 8) + high ∧
    (BitVec.ofNat 8 (0 ||| (blk % 8) <<< 2 ||| high)).toNat = 4 * (blk - 8) + high ∧
    (BitVec.ofNat 8 (0x20 ||| (blk % 8) <<< 2 ||| high)).toNat = 0x20 + 4 * (blk - 8) + high := by
  decide

/-- R356: with key-on set, bit 3 of the block falls on the bit that key-on sets. -/
theorem keyed_packings_agree : ∀ blk < 10, 0x20 ||| blk <<< 2 = 0x20 ||| (blk % 8) <<< 2 := by
  decide

/-- Settles O48: bits 9:8 of the F-number are one of four values, and the blocks are ten. -/
theorem packPlacesTheFields : Obligations.PackPlacesTheFields := by
  refine ⟨fun p blk fn key hblk hfn => ?fields, fun blk fn hblk => ?agree, fun blk fn hlow hblk hfn => ?high⟩
  case fields =>
    have hhigh : fn / 256 < 4 := by omega
    obtain ⟨hkey, hblock, hbits, htop⟩ := packed_fields blk hblk (fn / 256) hhigh key
    rw [packKeyBlock_of_lt p hblk, packKeyBlock_eq, Nat.mod_eq_of_lt hhigh]
    exact ⟨hkey, hblock, hbits, htop, rfl⟩
  case agree =>
    rw [packKeyBlock_eq, packKeyBlock_eq]
    exact congrArg (fun x => BitVec.ofNat 8 (x ||| fn / 256 % 4)) (keyed_packings_agree blk hblk)
  case high =>
    have hhigh : fn / 256 < 4 := by omega
    rw [packKeyBlock_eq, packKeyBlock_eq, packKeyBlock_eq, Nat.mod_eq_of_lt hhigh]
    exact packed_high_blocks blk hblk hlow (fn / 256) hhigh

/-! ### The range of the exponent -/

section Exponent

variable {n bend : Nat} {tr : Int}

/-- R280, R282: the block keeps the exponent, in semitones, within those of two octaves and the two retunings. -/
theorem fnumExponent_bounds (hbend : bend < 16384) (hlow : -127 ≤ tr) (hhigh : tr ≤ 127) :
    169 * 8192 ≤ fnumExponent n bend tr ∧ fnumExponent n bend tr < 196 * 8192 - 64 := by
  unfold fnumExponent
  by_cases hn : n < 24
  · rw [blockOf_of_lt hn]
    omega
  · rw [blockOf_of_le (by omega)]
    omega

/-! ### The range of the F-number -/

/-- The counterpart of `not_fnumAtMost_above`: a comparison that holds at p/q octaves by less than the margin `c / d`
fails 1/(q * k) octave below. -/
theorem not_fnumAtMost_below {p q k f : Nat} (c d : Nat) (hroot : c ^ k < 2 * d ^ k) (hp : 0 < p * k)
    (hpos : 0 < (2 * f - 1) * 25000) (h : 440 ^ q * 2 ^ p * d ≤ ((2 * f - 1) * 25000) ^ q * c) :
    fnumAtMost (p * k - 1) (q * k) f = false := by
  rw [Bool.eq_false_iff, Ne, fnumAtMost_iff, not_le]
  have hscaled : 440 ^ (q * k) * 2 ^ (p * k - 1) * (2 * d ^ k) <
      ((2 * f - 1) * 25000) ^ (q * k) * (2 * d ^ k) :=
    calc 440 ^ (q * k) * 2 ^ (p * k - 1) * (2 * d ^ k)
        = 440 ^ (q * k) * 2 ^ (p * k) * d ^ k := by
          rw [← Nat.two_pow_pred_mul_two hp]
          ring
      _ = (440 ^ q * 2 ^ p * d) ^ k := by rw [mul_pow, mul_pow, ← pow_mul, ← pow_mul]
      _ ≤ (((2 * f - 1) * 25000) ^ q * c) ^ k := Nat.pow_le_pow_left h k
      _ = ((2 * f - 1) * 25000) ^ (q * k) * c ^ k := by rw [mul_pow, ← pow_mul]
      _ < ((2 * f - 1) * 25000) ^ (q * k) * (2 * d ^ k) :=
        Nat.mul_lt_mul_of_pos_left hroot (Nat.pow_pos hpos)
  exact Nat.lt_of_mul_lt_mul_right hscaled

/-- 514/513 < 2^(1/128), near enough for the top of the range. -/
theorem root_lt_two : 514 ^ 128 < 2 * 513 ^ 128 := by norm_num

/-- At the bottom of the range the F-number is at least 153. -/
theorem fnumAtMost_153 : fnumAtMost 169 12 153 = true := by decide

/-- At the top of the range, 1/1536 octave below 196 semitones, it is below 727. -/
theorem not_fnumAtMost_727 : fnumAtMost (196 * 128 - 1) (12 * 128) 727 = false :=
  not_fnumAtMost_below 514 513 root_lt_two (by decide) (by decide) (by norm_num)

variable (hbend : bend < 16384) (hlow : -127 ≤ tr) (hhigh : tr ≤ 127)
include hbend hlow hhigh

/-- Above the top of the range no number of 727 or more is at most x + 1/2. -/
theorem not_fnumAtMost_of_le {f : Nat} (hf : 727 ≤ f) :
    fnumAtMost (fnumExponent n bend tr).toNat 98304 f = false := by
  have hbounds := fnumExponent_bounds (n := n) hbend hlow hhigh
  have htop : fnumAtMost ((196 * 128 - 1) * 64) (12 * 128 * 64) 727 = false := by
    rw [fnumAtMost_mul (by decide)]
    exact not_fnumAtMost_727
  refine Bool.eq_false_iff.mpr fun h => Bool.false_ne_true (htop.symm.trans ?_)
  exact fnumAtMost_mono_exponent (by omega) (fnumAtMost_of_le hf h)

/-- The search ends at the greatest number that is at most x + 1/2. -/
theorem fnumReference_spec :
    fnumAtMost (fnumExponent n bend tr).toNat 98304 (fnumReference n bend tr) = true ∧
      fnumAtMost (fnumExponent n bend tr).toNat 98304 (fnumReference n bend tr + 1) = false := by
  rw [fnumReference_eq_searchMax]
  obtain ⟨hle, hgt, -, -⟩ := searchMax_spec (fnumAtMost (fnumExponent n bend tr).toNat 98304) 11 0
    (fnumAtMost_zero (by decide)) (not_fnumAtMost_of_le hbend hlow hhigh (by decide))
  exact ⟨hle, hgt⟩

theorem fnumReference_le : fnumReference n bend tr ≤ 726 := by
  by_contra h
  have hle := (fnumReference_spec (n := n) hbend hlow hhigh).1
  rw [not_fnumAtMost_of_le hbend hlow hhigh (by omega)] at hle
  cases hle

theorem le_fnumReference : 153 ≤ fnumReference n bend tr := by
  by_contra h
  have hbounds := fnumExponent_bounds (n := n) hbend hlow hhigh
  have hgt := (fnumReference_spec (n := n) hbend hlow hhigh).2
  have hbottom : fnumAtMost (169 * 8192) (12 * 8192) 153 = true := by
    rw [fnumAtMost_mul (by decide)]
    exact fnumAtMost_153
  have hle := fnumAtMost_mono_exponent (p' := (fnumExponent n bend tr).toNat) (by omega) hbottom
  rw [fnumAtMost_of_le (by omega) hle] at hgt
  cases hgt

end Exponent

/-- Settles O51: the two ends of the exponent's range, below 1024. -/
theorem fnumStaysInRange : Obligations.FnumStaysInRange := by
  intro n bend tr _ hbend hlow hhigh
  have hle := fnumReference_le (n := n) hbend hlow hhigh
  exact ⟨le_fnumReference hbend hlow hhigh, hle, if_neg (by omega)⟩

/-! ### The formula over the reals -/

/-- The integer comparison is `f ≤ x + 1/2` for x = 440 * 2^(p/q) / 50000: both sides are raised to the q-th power. -/
theorem fnumAtMost_iff_real {p q : Nat} (hq : q ≠ 0) (f : Nat) :
    fnumAtMost p q f = true ↔ (f : ℝ) ≤ 440 * (2 : ℝ) ^ ((p : ℝ) / q) / 50000 + 1 / 2 := by
  have hroot : ((2 : ℝ) ^ ((p : ℝ) / q)) ^ q = 2 ^ p := by
    rw [← Real.rpow_natCast, ← Real.rpow_mul two_pos.le, div_mul_cancel₀ _ (Nat.cast_ne_zero.mpr hq),
      Real.rpow_natCast]
  have hpos : (0 : ℝ) ≤ 440 * (2 : ℝ) ^ ((p : ℝ) / q) := by positivity
  have hscaled : (((2 * f - 1) * 25000 : Nat) : ℝ) ≤ 440 * (2 : ℝ) ^ ((p : ℝ) / q) ↔
      (f : ℝ) ≤ 440 * (2 : ℝ) ^ ((p : ℝ) / q) / 50000 + 1 / 2 := by
    cases f with
    | zero =>
      refine iff_of_true (by simpa using hpos) ?_
      push_cast
      linarith
    | succ f =>
      rw [show (2 * (f + 1) - 1) * 25000 = (2 * f + 1) * 25000 by omega]
      push_cast
      constructor <;> intro h <;> linarith
  rw [fnumAtMost_iff, ← hscaled, ← pow_le_pow_iff_left₀ (Nat.cast_nonneg _) hpos hq, mul_pow (440 : ℝ), hroot]
  exact_mod_cast Iff.rfl

/-- R282: the model's exponent, in units of 1/98304 octave, is the formula's. -/
theorem fnumExponent_real (n bend : Nat) (tr : Int) :
    (fnumExponent n bend tr : ℝ) / 98304 =
      (((n : ℝ) - 69) + ((bend : ℝ) - 8192) / 8192 + (tr : ℝ) / 128) / 12 + ((20 : ℝ) - (blockOf n : ℝ)) := by
  unfold fnumExponent
  push_cast
  ring

/-- Settles O50: a number that is at most x + 1/2 while its successor is not is the floor of x + 1/2. -/
theorem fnumIsTheReferenceFormula : Obligations.FnumIsTheReferenceFormula := by
  intro n bend tr _ hbend hlow hhigh
  obtain ⟨hle, hgt⟩ := fnumReference_spec (n := n) hbend hlow hhigh
  have hexponent : (((fnumExponent n bend tr).toNat : Nat) : ℝ) = (fnumExponent n bend tr : ℝ) := by
    have := (fnumExponent_bounds (n := n) hbend hlow hhigh).1
    exact_mod_cast Int.toNat_of_nonneg (by omega)
  rw [Bool.eq_false_iff, Ne, fnumAtMost_iff_real (by decide), not_le] at hgt
  rw [fnumAtMost_iff_real (by decide)] at hle
  rw [hexponent, Nat.cast_ofNat, fnumExponent_real, Real.rpow_add two_pos, ← mul_assoc] at hle hgt
  refine (Int.floor_eq_iff.mpr ⟨?_, ?_⟩).symm
  · exact_mod_cast hle
  · exact_mod_cast hgt

/-! ### The integer root -/

/-- Settles O55: the search's own bounds. -/
theorem isqrtIsTheIntegerRoot : Obligations.IsqrtIsTheIntegerRoot := fun _ hx => isqrt_bounds hx

end Sys2Proof.Proofs.FrequencyFormula

/-! PROOFS. Reset and the boot order (70_reset_and_hazards R330 to R336) and the header check (40_instrument_bank R136,
R137). -/

namespace Sys2Proof.Proofs.Reset

open Sys2Proof Sys2Proof.Machine Sys2Proof.Proofs.Legality Sys2Proof.Proofs.PortHistory Sys2Proof.Proofs.NoteOn

/-! ### The two resets -/

theorem resetEngine_plain {cfg : Config} (htps : cfg.tps ≠ 0) (hpresets : cfg.presetPercFreqs = false) :
    resetEngine cfg = .ok (State.initial cfg) := by
  rw [resetEngine, if_neg htps, hpresets, if_neg Bool.false_ne_true]

theorem resetEngine_presets {cfg : Config} (htps : cfg.tps ≠ 0) (hpresets : cfg.presetPercFreqs = true) :
    resetEngine cfg = .ok (presetPercFreqs (State.initial cfg)) := by
  rw [resetEngine, if_neg htps, if_pos hpresets]

theorem initial_channel (cfg : Config) (c : Chan) : (State.initial cfg).channel c = ⟨0, 8192⟩ := by
  simp [State.channel, State.initial, Channel.reset]

theorem initial_voice (cfg : Config) (i : VoiceId) : (State.initial cfg).voice i = ⟨0, none, none, none⟩ := by
  simp [State.voice, State.initial, Voice.reset]

/-- Settles O56: the fields of the initial state. -/
theorem resetValues : Obligations.ResetValues := fun cfg htps hpresets =>
  ⟨State.initial cfg, resetEngine_plain htps hpresets, rfl, rfl, rfl, rfl, rfl, rfl, rfl, initial_channel cfg,
    initial_voice cfg, fun _ => rfl, rfl, rfl⟩

/-! ### The preset writes -/

/-- R333: the items of one preset's two writes. -/
def presetItems (p : Preset) : List OutItem :=
  [.write (regA0 p.voice) (BitVec.ofNat 8 (p.fnum.toNat % 256)),
    .write (regB0 p.voice) (BitVec.ofNat 8 (p.block.toNat * 4 + p.fnum.toNat / 256))]

/-- R333: the block and bits 9:8 of a 10-bit F-number do not overlap. -/
theorem presetKeyBlock_eq (p : Preset) :
    p.block.toNat <<< 2 ||| p.fnum.toNat >>> 8 = p.block.toNat * 4 + p.fnum.toNat / 256 := by
  have hhigh : p.fnum.toNat >>> 8 < 2 ^ 2 := by
    rw [Nat.shiftRight_eq_div_pow]
    have := p.fnum.isLt
    omega
  rw [← Nat.shiftLeft_add_eq_or_of_lt hhigh, Nat.shiftLeft_eq, Nat.shiftRight_eq_div_pow]

theorem writeItems_presetWrites (p : Preset) : writeItems (presetWrites p) = presetItems p := by
  rw [presetWrites, fnumLow_eq, presetKeyBlock_eq]
  rfl

theorem presetPercFreqs_out (s : State) :
    (presetPercFreqs s).out = s.out ++ s.cfg.presetValues.flatMap presetItems := by
  rw [presetPercFreqs, State.writeRegs_out, List.map_flatMap]
  congr 2
  funext p
  exact writeItems_presetWrites p

theorem presetPercFreqs_frame (s : State) : presetPercFreqs s = { s with
    mirror := (presetPercFreqs s).mirror, out := (presetPercFreqs s).out } := by
  conv_lhs => rw [presetPercFreqs, State.writeRegs_frame]
  rw [presetPercFreqs, State.writeRegs_out]

/-- Settles O57: the presets' items in list order; the default ones are two closed values. -/
theorem presetWritesFollowTheList : Obligations.PresetWritesFollowTheList := by
  refine ⟨fun cfg htps hpresets => ?list, fun s hs => ?default⟩
  case list =>
    exact ⟨presetPercFreqs (State.initial cfg), resetEngine_presets htps hpresets,
      presetPercFreqs_out (State.initial cfg), presetPercFreqs_frame (State.initial cfg)⟩
  case default =>
    rw [resetEngine_presets (by decide) rfl] at hs
    cases hs
    rfl

/-! ### The header check -/

theorem headerLength_0100 : headerLength .default 0x0100 = 0x25 := by decide

theorem headerLength_0101 : headerLength .default 0x0101 = 0x28 := by decide

section Header

variable {layout : HeaderLayout} {file : List Byte}

theorem readHeader_badMagic (hlen : 6 ≤ file.length) (hmagic : file.take 4 ≠ magicBytes) :
    readHeader layout file = .error .badMagic := by
  rw [readHeader, if_neg (by omega), if_pos hmagic]

/-- R136: past the magic, the version is checked. -/
theorem readHeader_of_magic (hlen : 6 ≤ file.length) (hmagic : file.take 4 = magicBytes) :
    readHeader layout file =
      if fileU16 file 4 ≠ 0x0100 ∧ fileU16 file 4 ≠ 0x0101 then .error .unsupportedVersion
      else if file.length < headerLength layout (fileU16 file 4) then .error .truncatedInput
      else .ok (headerFields layout file (fileU16 file 4)) := by
  rw [readHeader, if_neg (by omega), if_neg (not_not.mpr hmagic), if_neg (by omega)]

variable {version : Nat} (hlen : 6 ≤ file.length) (hmagic : file.take 4 = magicBytes)
  (hversion : fileU16 file 4 = version) (hknown : version = 0x0100 ∨ version = 0x0101)
include hlen hmagic hversion hknown

theorem readHeader_truncated (hshort : file.length < headerLength layout version) :
    readHeader layout file = .error .truncatedInput := by
  rw [readHeader_of_magic hlen hmagic, hversion, if_neg (by omega), if_pos hshort]

theorem readHeader_fields (hfits : headerLength layout version ≤ file.length) :
    readHeader layout file = .ok (headerFields layout file version) := by
  rw [readHeader_of_magic hlen hmagic, hversion, if_neg (by omega), if_neg (not_lt.mpr hfits)]

end Header

/-- Settles O59: the checks in their order, with the length that each version needs. -/
theorem headerChecksInOrder : Obligations.HeaderChecksInOrder := by
  intro file hlen
  refine ⟨readHeader_badMagic hlen, fun hmagic => ⟨fun h0 h1 => ?unsupported, fun hv hshort => ?short0100,
    fun hv hshort => ?short0101, fun hv hfits => ?fields0100, fun hv hfits => ?fields0101⟩⟩
  case unsupported => rw [readHeader_of_magic hlen hmagic, if_pos ⟨h0, h1⟩]
  case short0100 => exact readHeader_truncated hlen hmagic hv (.inl rfl) (headerLength_0100 ▸ hshort)
  case short0101 => exact readHeader_truncated hlen hmagic hv (.inr rfl) (headerLength_0101 ▸ hshort)
  case fields0100 =>
    exact ⟨_, readHeader_fields hlen hmagic hv (.inl rfl) (headerLength_0100 ▸ hfits), rfl, rfl, rfl, rfl, rfl⟩
  case fields0101 =>
    exact ⟨_, readHeader_fields hlen hmagic hv (.inr rfl) (headerLength_0101 ▸ hfits), rfl, rfl, rfl, rfl, rfl⟩

/-! ### The boot order -/

section Boot

variable {records : RecordLayout} {layout : HeaderLayout} {patches : Fin 16 → Instrument} {params : Config}
  {file : List Byte}

theorem boot_header_error {e : LoadError} (h : readHeader layout file = .error e) :
    boot records layout patches params file = .error e := by
  rw [boot, loadFile, h]

/-- R138: the configuration of a file, from its header and its bank. -/
def fileConfig (params : Config) (file : List Byte) (h : Header) (bank : Vector Instrument 128) : Config :=
  { params with
    music := musicOfBytes (file.drop h.musicOffset)
    tps := BitVec.ofNat 16 h.ticksPerSecond
    bank := bank }

variable {h : Header} (hheader : readHeader layout file = .ok h)
include hheader

theorem boot_bank_error {e : LoadError}
    (hbank : loadBank records patches file h.instrumentOffset h.instrumentCount = .error e) :
    boot records layout patches params file = .error e := by
  simp only [boot, loadFile, hheader, hbank]

/-- R336: past the header and the bank, boot is the reset of the file's configuration. -/
theorem boot_loaded {bank : Vector Instrument 128}
    (hbank : loadBank records patches file h.instrumentOffset h.instrumentCount = .ok bank) :
    boot records layout patches params file = resetEngine (fileConfig params file h bank) := by
  simp only [boot, loadFile, hheader, hbank, fileConfig]

end Boot

/-- What remains to be read depends on the configuration and PTR only. -/
theorem remaining_congr {s t : State} (hcfg : t.cfg = s.cfg) (hptr : t.ptr = s.ptr) : t.remaining = s.remaining := by
  have hlength : t.streamLength = s.streamLength := by rw [State.streamLength, hcfg]; rfl
  have hbyte : t.streamByte = s.streamByte := by
    funext a
    rw [State.streamByte, hcfg]
    rfl
  rw [State.remaining, State.remaining, hlength, hptr, hbyte]

/-- R330, R333, R334: an accepted reset, with or without presets, over a stream of bytes. -/
theorem resetEngine_accepted {cfg : Config} {bytes : List Byte} (htps : cfg.tps ≠ 0)
    (hmusic : cfg.music = musicOfBytes bytes) :
    ∃ s, resetEngine cfg = .ok s ∧ s.cfg = cfg ∧ s.remaining = bytes ∧
      s = { State.initial cfg with mirror := s.mirror, out := s.out } ∧ mirrorReplaysOutput s ∧
      (cfg.presetPercFreqs = false → s = State.initial cfg) ∧
      (cfg.presetPercFreqs = true → s.out = cfg.presetValues.flatMap presetItems) := by
  cases hpresets : cfg.presetPercFreqs with
  | false =>
    have hreset := resetEngine_plain htps hpresets
    exact ⟨_, hreset, rfl, State.initial_remaining cfg bytes hmusic, rfl, (everyResetIsLegal _ _ hreset).2,
      fun _ => rfl, nofun⟩
  | true =>
    have hreset := resetEngine_presets htps hpresets
    have hframe := presetPercFreqs_frame (State.initial cfg)
    have hcfg : (presetPercFreqs (State.initial cfg)).cfg = cfg := by rw [hframe]; rfl
    have hptr : (presetPercFreqs (State.initial cfg)).ptr = 0 := by rw [hframe]; rfl
    exact ⟨_, hreset, hcfg, (remaining_congr hcfg hptr).trans (State.initial_remaining cfg bytes hmusic), hframe,
      (everyResetIsLegal _ _ hreset).2, nofun, fun _ => presetPercFreqs_out (State.initial cfg)⟩

/-- Settles O60: each step of the boot order, and the reset of the file's configuration. -/
theorem bootReadsTheMusicRegion : Obligations.BootReadsTheMusicRegion := by
  intro records layout patches params file
  refine ⟨fun e => boot_header_error, fun h hheader => ⟨fun e => boot_bank_error hheader,
    fun bank hbank => ⟨fun htps => ?zeroTps, fun htps => ?accepted⟩⟩⟩
  case zeroTps => exact (boot_loaded hheader hbank).trans (Tick.zeroTpsRefused.2 _ htps)
  case accepted =>
    obtain ⟨s, hreset, hcfg, hremaining, hframe, hreplays, hplain, hpresets⟩ :=
      resetEngine_accepted (cfg := fileConfig params file h bank) htps rfl
    refine ⟨s, (boot_loaded hheader hbank).trans hreset, hremaining, ?_, ?_, hreplays, ?_, hpresets⟩
    · rw [hcfg]
      rfl
    · rw [hcfg]
      exact hframe
    · rw [hcfg]
      exact hplain

end Sys2Proof.Proofs.Reset
